-- ==== Sys2Proof/Word.lean ====
section
/-!
DEFINITION. The machine's word types (00_scope R7, R9, R10). Plain names only: everything computed on words
stands in Decode.lean and under Machine/.
-/

namespace Sys2Proof

/-- A byte: a general register, a timer, a memory cell, the immediate NN. -/
abbrev Byte := BitVec 8

/-- A 16-bit word: I, pc, a stack entry, an instruction word. -/
abbrev Word := BitVec 16

/-- The 12-bit address field NNN. -/
abbrev Addr := BitVec 12

/-- A register number 0x0-0xF (the fields X and Y). -/
abbrev Reg := Fin 16

end Sys2Proof
end

