-- ==== Sys2Proof/Syntax.lean ====
section
/-!
DEFINITION. The instructions: one constructor per row of spec/opcode_table.json (30_encoding R73, R76).
-/

namespace Sys2Proof

/-- An instruction of the engine, its operands as R72 assembles them. -/
inductive Instr where
  /-- 00E0 CLS (R150) -/
  | cls
  /-- 00EE RET (R100) -/
  | ret
  /-- 1NNN JP addr (R101) -/
  | jp (nnn : Addr)
  /-- 2NNN CALL addr (R102) -/
  | call (nnn : Addr)
  /-- 3XNN SE Vx, byte (R103) -/
  | seImm (x : Reg) (nn : Byte)
  /-- 4XNN SNE Vx, byte (R104) -/
  | sneImm (x : Reg) (nn : Byte)
  /-- 5XY0 SE Vx, Vy (R105) -/
  | seReg (x y : Reg)
  /-- 6XNN LD Vx, byte (R120) -/
  | ldImm (x : Reg) (nn : Byte)
  /-- 7XNN ADD Vx, byte (R121) -/
  | addImm (x : Reg) (nn : Byte)
  /-- 8XY0 LD Vx, Vy (R122) -/
  | ldReg (x y : Reg)
  /-- 8XY1 OR Vx, Vy (R123) -/
  | orReg (x y : Reg)
  /-- 8XY2 AND Vx, Vy (R124) -/
  | andReg (x y : Reg)
  /-- 8XY3 XOR Vx, Vy (R125) -/
  | xorReg (x y : Reg)
  /-- 8XY4 ADD Vx, Vy (R126) -/
  | addReg (x y : Reg)
  /-- 8XY5 SUB Vx, Vy (R127) -/
  | subReg (x y : Reg)
  /-- 8XY6 SHR Vx {, Vy}: Y is encoded and ignored (R128, R78) -/
  | shr (x y : Reg)
  /-- 8XY7 SUBN Vx, Vy (R130) -/
  | subnReg (x y : Reg)
  /-- 8XYE SHL Vx {, Vy}: Y is encoded and ignored (R131, R78) -/
  | shl (x y : Reg)
  /-- 9XY0 SNE Vx, Vy (R106) -/
  | sneReg (x y : Reg)
  /-- ANNN LD I, addr (R170) -/
  | ldI (nnn : Addr)
  /-- BNNN JP V0, addr (R107) -/
  | jpV0 (nnn : Addr)
  /-- CXNN RND Vx, byte (R132) -/
  | rnd (x : Reg) (nn : Byte)
  /-- DXYN DRW Vx, Vy, nibble (R151) -/
  | drw (x y : Reg) (n : Fin 16)
  /-- EX9E SKP Vx (R160) -/
  | skp (x : Reg)
  /-- EXA1 SKNP Vx (R161) -/
  | sknp (x : Reg)
  /-- FX07 LD Vx, DT (R162) -/
  | ldVxDt (x : Reg)
  /-- FX0A LD Vx, K (R163) -/
  | ldVxK (x : Reg)
  /-- FX15 LD DT, Vx (R164) -/
  | ldDtVx (x : Reg)
  /-- FX18 LD ST, Vx (R165) -/
  | ldStVx (x : Reg)
  /-- FX1E ADD I, Vx (R171) -/
  | addIVx (x : Reg)
  /-- FX29 LD F, Vx (R172) -/
  | ldFVx (x : Reg)
  /-- FX33 LD B, Vx (R173) -/
  | ldBVx (x : Reg)
  /-- FX55 LD [I], Vx (R174) -/
  | ldMemVx (x : Reg)
  /-- FX65 LD Vx, [I] (R175) -/
  | ldVxMem (x : Reg)
  /-- The catch-all row: a word that matches no pattern, kept whole for its event (R76, R206). DESIGN CHOICE, log 10. -/
  | unknownOpcode (op : Word)
deriving DecidableEq, Repr

end Sys2Proof
end

