-- ==== Sys2Proof/WellFormed.lean ====
section
/-!
DEFINITION. The opcode table's patterns as masks and values (opcode_table.json, R73) and which instruction terms
are well formed. Every operand is in range by its type; the one check is that the catch-all holds no word that
some pattern matches (R75, R76).
-/

namespace Sys2Proof

/-- One row of the opcode table: a word `op` matches it when `op & mask = value` (R74: operand nibbles match any
value, every other nibble exactly). -/
structure OpcodeRow where
  mask : Word
  value : Word
deriving DecidableEq, Repr

/-- The word has the row's fixed nibbles (R74). -/
def OpcodeRow.hits (r : OpcodeRow) (op : Word) : Bool :=
  op &&& r.mask == r.value

/-- The patterns of format Z (R71, R73). -/
def rowsZ : List OpcodeRow :=
  [⟨0xFFFF, 0x00E0⟩,
   ⟨0xFFFF, 0x00EE⟩]

/-- The patterns of format A (R71, R73). -/
def rowsA : List OpcodeRow :=
  [⟨0xF000, 0x1000⟩,
   ⟨0xF000, 0x2000⟩,
   ⟨0xF000, 0xA000⟩,
   ⟨0xF000, 0xB000⟩]

/-- The patterns of format XB (R71, R73). -/
def rowsXB : List OpcodeRow :=
  [⟨0xF000, 0x3000⟩,
   ⟨0xF000, 0x4000⟩,
   ⟨0xF000, 0x6000⟩,
   ⟨0xF000, 0x7000⟩,
   ⟨0xF000, 0xC000⟩]

/-- The patterns of format XY (R71, R73). -/
def rowsXY : List OpcodeRow :=
  [⟨0xF00F, 0x5000⟩,
   ⟨0xF00F, 0x8000⟩,
   ⟨0xF00F, 0x8001⟩,
   ⟨0xF00F, 0x8002⟩,
   ⟨0xF00F, 0x8003⟩,
   ⟨0xF00F, 0x8004⟩,
   ⟨0xF00F, 0x8005⟩,
   ⟨0xF00F, 0x8006⟩,
   ⟨0xF00F, 0x8007⟩,
   ⟨0xF00F, 0x800E⟩,
   ⟨0xF00F, 0x9000⟩]

/-- The patterns of format XYN (R71, R73). -/
def rowsXYN : List OpcodeRow :=
  [⟨0xF000, 0xD000⟩]

/-- The patterns of format XF (R71, R73). -/
def rowsXF : List OpcodeRow :=
  [⟨0xF0FF, 0xE09E⟩,
   ⟨0xF0FF, 0xE0A1⟩,
   ⟨0xF0FF, 0xF007⟩,
   ⟨0xF0FF, 0xF00A⟩,
   ⟨0xF0FF, 0xF015⟩,
   ⟨0xF0FF, 0xF018⟩,
   ⟨0xF0FF, 0xF01E⟩,
   ⟨0xF0FF, 0xF029⟩,
   ⟨0xF0FF, 0xF033⟩,
   ⟨0xF0FF, 0xF055⟩,
   ⟨0xF0FF, 0xF065⟩]

/-- The 34 patterns of the opcode map (R73). -/
def opcodeRows : List OpcodeRow :=
  rowsZ ++ rowsA ++ rowsXB ++ rowsXY ++ rowsXYN ++ rowsXF

/-- The word matches some pattern, so it is no UnknownOpcode (R76). -/
def isKnownWord (op : Word) : Bool :=
  opcodeRows.any (·.hits op)

/-- A term that stands for an instruction word: only the catch-all can fail (R76). -/
def Instr.wf : Instr → Bool
  | .unknownOpcode op => !isKnownWord op
  | .cls | .ret => true
  | .jp _ | .call _ | .ldI _ | .jpV0 _ => true
  | .seImm _ _ | .sneImm _ _ | .ldImm _ _ | .addImm _ _ | .rnd _ _ => true
  | .seReg _ _ | .sneReg _ _ | .ldReg _ _ | .orReg _ _ | .andReg _ _ | .xorReg _ _ => true
  | .addReg _ _ | .subReg _ _ | .subnReg _ _ | .shr _ _ | .shl _ _ => true
  | .drw _ _ _ => true
  | .skp _ | .sknp _ | .ldVxDt _ | .ldVxK _ | .ldDtVx _ | .ldStVx _ => true
  | .addIVx _ | .ldFVx _ | .ldBVx _ | .ldMemVx _ | .ldVxMem _ => true

/-- The table row an instruction belongs to; the catch-all has none. -/
def Instr.row : Instr → Option OpcodeRow
  | .cls => some ⟨0xFFFF, 0x00E0⟩
  | .ret => some ⟨0xFFFF, 0x00EE⟩
  | .jp _ => some ⟨0xF000, 0x1000⟩
  | .call _ => some ⟨0xF000, 0x2000⟩
  | .seImm _ _ => some ⟨0xF000, 0x3000⟩
  | .sneImm _ _ => some ⟨0xF000, 0x4000⟩
  | .seReg _ _ => some ⟨0xF00F, 0x5000⟩
  | .ldImm _ _ => some ⟨0xF000, 0x6000⟩
  | .addImm _ _ => some ⟨0xF000, 0x7000⟩
  | .ldReg _ _ => some ⟨0xF00F, 0x8000⟩
  | .orReg _ _ => some ⟨0xF00F, 0x8001⟩
  | .andReg _ _ => some ⟨0xF00F, 0x8002⟩
  | .xorReg _ _ => some ⟨0xF00F, 0x8003⟩
  | .addReg _ _ => some ⟨0xF00F, 0x8004⟩
  | .subReg _ _ => some ⟨0xF00F, 0x8005⟩
  | .shr _ _ => some ⟨0xF00F, 0x8006⟩
  | .subnReg _ _ => some ⟨0xF00F, 0x8007⟩
  | .shl _ _ => some ⟨0xF00F, 0x800E⟩
  | .sneReg _ _ => some ⟨0xF00F, 0x9000⟩
  | .ldI _ => some ⟨0xF000, 0xA000⟩
  | .jpV0 _ => some ⟨0xF000, 0xB000⟩
  | .rnd _ _ => some ⟨0xF000, 0xC000⟩
  | .drw _ _ _ => some ⟨0xF000, 0xD000⟩
  | .skp _ => some ⟨0xF0FF, 0xE09E⟩
  | .sknp _ => some ⟨0xF0FF, 0xE0A1⟩
  | .ldVxDt _ => some ⟨0xF0FF, 0xF007⟩
  | .ldVxK _ => some ⟨0xF0FF, 0xF00A⟩
  | .ldDtVx _ => some ⟨0xF0FF, 0xF015⟩
  | .ldStVx _ => some ⟨0xF0FF, 0xF018⟩
  | .addIVx _ => some ⟨0xF0FF, 0xF01E⟩
  | .ldFVx _ => some ⟨0xF0FF, 0xF029⟩
  | .ldBVx _ => some ⟨0xF0FF, 0xF033⟩
  | .ldMemVx _ => some ⟨0xF0FF, 0xF055⟩
  | .ldVxMem _ => some ⟨0xF0FF, 0xF065⟩
  | .unknownOpcode _ => none

end Sys2Proof
end

