-- ==== Sys2Proof/Decode.lean ====
section
/-!
DEFINITION. Decoding (30_encoding R70-R78), total on every 16-bit word and rejecting by name a byte list too short
to hold one, and the encoder, written from the same formats (R71).
-/

namespace Sys2Proof

/-! ## The fields of a word (R9, R10, R71, R72) -/

/-- n1 = op[15:12], the major opcode. -/
def majorOf (op : Word) : BitVec 4 := op.extractLsb 15 12

/-- X = n2 = op[11:8]. -/
def fieldX (op : Word) : Reg := (op.extractLsb 11 8).toFin

/-- Y = n3 = op[7:4]. -/
def fieldY (op : Word) : Reg := (op.extractLsb 7 4).toFin

/-- N = n4 = op[3:0], the count of DXYN. -/
def fieldN (op : Word) : Fin 16 := (op.extractLsb 3 0).toFin

/-- n4 = op[3:0] as a function nibble. -/
def functionNibble (op : Word) : BitVec 4 := op.extractLsb 3 0

/-- NN = op[7:0], also the function byte of format XF. -/
def fieldNN (op : Word) : Byte := op.extractLsb 7 0

/-- NNN = op[11:0]. -/
def fieldNNN (op : Word) : Addr := op.extractLsb 11 0

/-- The word of a big-endian byte pair: (hi << 8) | lo (20_memory R55). -/
def wordOfBytes (hi lo : Byte) : Word := hi ++ lo

/-- The byte of a word stored at the lower address (R55). -/
def highByte (op : Word) : Byte := op.extractLsb 15 8

/-- The byte of a word stored at the higher address (R55). -/
def lowByte (op : Word) : Byte := op.extractLsb 7 0

/-! ## Decoding -/

/-- Major opcode 8: the function nibble selects the ALU operation (R73). -/
def decodeAlu (op : Word) : Instr :=
  let x := fieldX op
  let y := fieldY op
  match (functionNibble op).toNat with
  | 0x0 => .ldReg x y
  | 0x1 => .orReg x y
  | 0x2 => .andReg x y
  | 0x3 => .xorReg x y
  | 0x4 => .addReg x y
  | 0x5 => .subReg x y
  | 0x6 => .shr x y
  | 0x7 => .subnReg x y
  | 0xE => .shl x y
  | _ => .unknownOpcode op

/-- Major opcode F: the function byte selects the operation (R73). -/
def decodeMisc (op : Word) : Instr :=
  let x := fieldX op
  match (fieldNN op).toNat with
  | 0x07 => .ldVxDt x
  | 0x0A => .ldVxK x
  | 0x15 => .ldDtVx x
  | 0x18 => .ldStVx x
  | 0x1E => .addIVx x
  | 0x29 => .ldFVx x
  | 0x33 => .ldBVx x
  | 0x55 => .ldMemVx x
  | 0x65 => .ldVxMem x
  | _ => .unknownOpcode op

/-- The opcode map (R73, R74). Total: a word no pattern matches is the catch-all (R76). The fixed last nibble of
5XY0 and 9XY0 is exact (R74, decision D14). -/
def decode (op : Word) : Instr :=
  match (majorOf op).toNat with
  | 0x0 =>
    if op = 0x00E0 then .cls
    else if op = 0x00EE then .ret
    else .unknownOpcode op
  | 0x1 => .jp (fieldNNN op)
  | 0x2 => .call (fieldNNN op)
  | 0x3 => .seImm (fieldX op) (fieldNN op)
  | 0x4 => .sneImm (fieldX op) (fieldNN op)
  | 0x5 => if functionNibble op = 0 then .seReg (fieldX op) (fieldY op) else .unknownOpcode op
  | 0x6 => .ldImm (fieldX op) (fieldNN op)
  | 0x7 => .addImm (fieldX op) (fieldNN op)
  | 0x8 => decodeAlu op
  | 0x9 => if functionNibble op = 0 then .sneReg (fieldX op) (fieldY op) else .unknownOpcode op
  | 0xA => .ldI (fieldNNN op)
  | 0xB => .jpV0 (fieldNNN op)
  | 0xC => .rnd (fieldX op) (fieldNN op)
  | 0xD => .drw (fieldX op) (fieldY op) (fieldN op)
  | 0xE =>
    if fieldNN op = 0x9E then .skp (fieldX op)
    else if fieldNN op = 0xA1 then .sknp (fieldX op)
    else .unknownOpcode op
  | _ => decodeMisc op

/-- Why a byte list holds no instruction. -/
inductive DecodeError where
  /-- fewer than two bytes: an instruction is exactly two (R70) -/
  | truncated
deriving DecidableEq, Repr

/-- Decode the first instruction of a byte list and return the rest: always two bytes are consumed (R70), the
first being bits 15:8 (R55). -/
def decodeBytes : List Byte → Except DecodeError (Instr × List Byte)
  | hi :: lo :: rest => .ok (decode (wordOfBytes hi lo), rest)
  | [_] => .error .truncated
  | [] => .error .truncated

/-- The host's entry to the decoder: the word `w` of `nbits` bits, laid out big-endian as the hardware stores it
and given to `decodeBytes`. -/
def decodeTableWord (nbits w : Nat) : Option Instr :=
  let op := BitVec.ofNat 16 (w % 2 ^ nbits)
  match decodeBytes [highByte op, lowByte op] with
  | .ok (i, _) => some i
  | .error _ => none

/-! ## Encoding (R71: the formats A, XB, XY/XYN and XF) -/

/-- Format A: n1, NNN. -/
def wordA (n1 : BitVec 4) (nnn : Addr) : Word := n1 ++ nnn

/-- Formats XB and XF: n1, X and a low byte (NN, or the function byte). -/
def wordXB (n1 : BitVec 4) (x : Reg) (low : Byte) : Word := n1 ++ BitVec.ofFin (w := 4) x ++ low

/-- Formats XY and XYN: n1, X, Y and a last nibble (the function, or N). -/
def wordXY (n1 : BitVec 4) (x y : Reg) (last : BitVec 4) : Word :=
  n1 ++ BitVec.ofFin (w := 4) x ++ BitVec.ofFin (w := 4) y ++ last

/-- The word of an instruction (R71, R73). -/
def encode : Instr → Word
  | .cls => 0x00E0
  | .ret => 0x00EE
  | .jp nnn => wordA 0x1 nnn
  | .call nnn => wordA 0x2 nnn
  | .seImm x nn => wordXB 0x3 x nn
  | .sneImm x nn => wordXB 0x4 x nn
  | .seReg x y => wordXY 0x5 x y 0x0
  | .ldImm x nn => wordXB 0x6 x nn
  | .addImm x nn => wordXB 0x7 x nn
  | .ldReg x y => wordXY 0x8 x y 0x0
  | .orReg x y => wordXY 0x8 x y 0x1
  | .andReg x y => wordXY 0x8 x y 0x2
  | .xorReg x y => wordXY 0x8 x y 0x3
  | .addReg x y => wordXY 0x8 x y 0x4
  | .subReg x y => wordXY 0x8 x y 0x5
  | .shr x y => wordXY 0x8 x y 0x6
  | .subnReg x y => wordXY 0x8 x y 0x7
  | .shl x y => wordXY 0x8 x y 0xE
  | .sneReg x y => wordXY 0x9 x y 0x0
  | .ldI nnn => wordA 0xA nnn
  | .jpV0 nnn => wordA 0xB nnn
  | .rnd x nn => wordXB 0xC x nn
  | .drw x y n => wordXY 0xD x y (BitVec.ofFin (w := 4) n)
  | .skp x => wordXB 0xE x 0x9E
  | .sknp x => wordXB 0xE x 0xA1
  | .ldVxDt x => wordXB 0xF x 0x07
  | .ldVxK x => wordXB 0xF x 0x0A
  | .ldDtVx x => wordXB 0xF x 0x15
  | .ldStVx x => wordXB 0xF x 0x18
  | .addIVx x => wordXB 0xF x 0x1E
  | .ldFVx x => wordXB 0xF x 0x29
  | .ldBVx x => wordXB 0xF x 0x33
  | .ldMemVx x => wordXB 0xF x 0x55
  | .ldVxMem x => wordXB 0xF x 0x65
  | .unknownOpcode op => op

/-- The two bytes of an instruction, as memory holds them (R55, R70). -/
def encodeBytes (i : Instr) : List Byte := [highByte (encode i), lowByte (encode i)]

end Sys2Proof
end

