-- ==== Sys2Proof/Config.lean ====
section
/-!
DEFINITION. What an implementation fixes (00_scope R7) and the free values the spec leaves open (R41, R240).
The parameter FONTSET stands in Machine/Font.lean.
-/

namespace Sys2Proof.Config

/-- MEM_SIZE: 4096 bytes, addresses 0x000-0xFFF (R7). -/
@[reducible] def memSize : Nat := 4096

/-- PROG_BASE: the load address and the reset pc (R7). -/
@[reducible] def progBase : Nat := 0x200

/-- STACK_DEPTH (R7). -/
@[reducible] def stackDepth : Nat := 16

/-- NKEYS (R7). -/
@[reducible] def numKeys : Nat := 16

/-- FB_W, the framebuffer's width in pixels (R7). -/
@[reducible] def fbWidth : Nat := 64

/-- FB_H, the framebuffer's height in pixels (R7). -/
@[reducible] def fbHeight : Nat := 32

/-- The number of pixels: 64 × 32 (R7, R8). -/
@[reducible] def fbCells : Nat := 2048

/-- A table for the parameter FONTSET: 16 glyphs × 5 bytes (R7, 10_state R31). A machine carries the table it is built
with in `State.font`; the default is `fontset` of Machine/Font.lean. -/
abbrev FontSet := Vector (BitVec 8) 80

/-- FREE VALUE. The byte that the `n`th draw of the rand input supplies (10_state R41, 41_alu R132): no law.
DESIGN CHOICE, log 2. -/
opaque rand : Nat → Byte

/-- FREE VALUE. CYCLES_PER_FRAME, the host's own pacing choice (R7, 70_reset R240). DESIGN CHOICE, log 3. -/
opaque cyclesPerFrame : Nat

/-- The switch of conflict C3 (decision D6) for 8FY6 and 8FYE: true is the spec's decision, VF written last; false
is the literal order of the source's rows, VF written first. DEDUCED, log 6. -/
def shiftFlagLast : Bool := true

end Sys2Proof.Config
end

