-- ==== Sys2Proof/Machine/Font.lean ====
section
/-!
DEFINITION. The default table of the parameter FONTSET (10_state R31, decision D9): the spec's, general knowledge and
not in its source (93_implementation_defined G1). PRESUMED, log 1. The parameter itself is `State.font`.
-/

namespace Sys2Proof.Machine

/-- Glyphs 0-7, five rows each (R31). -/
def glyphs0to7 : List Byte :=
  [0xF0, 0x90, 0x90, 0x90, 0xF0] ++ [0x20, 0x60, 0x20, 0x20, 0x70] ++
  [0xF0, 0x10, 0xF0, 0x80, 0xF0] ++ [0xF0, 0x10, 0xF0, 0x10, 0xF0] ++
  [0x90, 0x90, 0xF0, 0x10, 0x10] ++ [0xF0, 0x80, 0xF0, 0x10, 0xF0] ++
  [0xF0, 0x80, 0xF0, 0x90, 0xF0] ++ [0xF0, 0x10, 0x20, 0x40, 0x40]

/-- Glyphs 8-F, five rows each (R31). -/
def glyphs8toF : List Byte :=
  [0xF0, 0x90, 0xF0, 0x90, 0xF0] ++ [0xF0, 0x90, 0xF0, 0x10, 0xF0] ++
  [0xF0, 0x90, 0xF0, 0x90, 0x90] ++ [0xE0, 0x90, 0xE0, 0x90, 0xE0] ++
  [0xF0, 0x80, 0x80, 0x80, 0xF0] ++ [0xE0, 0x90, 0x90, 0x90, 0xE0] ++
  [0xF0, 0x80, 0xF0, 0x80, 0xF0] ++ [0xF0, 0x80, 0xF0, 0x80, 0x80]

/-- The default of FONTSET, the conventional font: glyph d is bytes 5d..5d+4 (R31). -/
def fontset : Config.FontSet := ⟨(glyphs0to7 ++ glyphs8toF).toArray, rfl⟩

end Sys2Proof.Machine
end

