-- ==== Sys2Proof/Machine/State.lean ====
section
/-!
DEFINITION. The state as plain data (10_state R20-R35): the spec's twelve elements, the configuration it is
built with (`font`) and three fields of the model's own (`draws`, `inbox`, `outputs`); the ports' operations and outputs (R36); the reasons a step can stop; reset.
-/

namespace Sys2Proof.Machine

/-! ## The fault record (60_exceptions R200, R204) -/

/-- The kinds of fatal fault (R200). -/
inductive FaultKind where
  /-- MemoryFault at fetch: pc + 1 ≥ 4096 -/
  | fetch
  /-- MemoryFault of DXYN, FX33, FX55 or FX65 -/
  | data
  /-- StackFault of 2NNN with 16 entries in use -/
  | stackOverflow
  /-- StackFault of 00EE with none in use -/
  | stackUnderflow
  /-- KeyIndexFault of EX9E or EXA1 with Vx ≥ 16 -/
  | keyIndex
deriving DecidableEq, Repr

/-- The fault record `info` (R204). -/
structure FaultInfo where
  code : Nat
  kind : FaultKind
  /-- the address of the faulting instruction -/
  pc : Word
  /-- the fetched word, none for a Fetch fault -/
  opcode : Option Word
  /-- the lowest out-of-range address, or the key index, or none; unbounded -/
  addr : Option Nat
deriving DecidableEq, Repr

/-- The run/halt register (R32). -/
inductive Status where
  | running
  | halted (info : FaultInfo)
deriving DecidableEq, Repr

/-! ## The ports (10_state R36) -/

/-- A framebuffer: bit y*64 + x is the pixel at column x and row y (R28, R38). DESIGN CHOICE, log 12. -/
abbrev Frame := BitVec 2048

/-- An operation the host can strobe (R36, R38). -/
inductive PortOp where
  | cycle
  | tick
  | key (index : Int) (pressed : Bool)
  | load (bytes : List Byte)
  | reset
  | readDisplay
deriving DecidableEq, Repr

/-- load_result (70_reset R232). -/
inductive LoadResult where
  | ok
  | romTooLarge
deriving DecidableEq, Repr

/-- key_result (60_exceptions R214). -/
inductive KeyResult where
  | ok
  | keyError
deriving DecidableEq, Repr

/-- What an operation emits on an output port that is not state (R36, R38, R40). -/
inductive PortOutput where
  /-- unknown_event: the word's address and the word (R40, R206) -/
  | unknownOpcode (pc opcode : Word)
  | loadResult (r : LoadResult)
  | keyResult (r : KeyResult)
  /-- what a display read returned (R38) -/
  | display (fb : Frame)
deriving DecidableEq, Repr

/-! ## The state -/

/-- Memory as (address, byte) pairs: addresses strictly rising, no entry equal to what an unlisted address reads
as (`Memory.wf`, `Memory.unlisted` in Machine/Ops.lean). DESIGN CHOICE, log 11. -/
abbrev Memory := List Host.Cell

/-- The engine's state (R20), its configuration and the model's own three fields. -/
structure State where
  /-- CONFIGURATION: the parameter FONTSET (R7, R31), the constant that construction and reset copy to 0x000-0x04F
  (90_conflicts C5). Any table; no operation writes it. Log 1. -/
  font : Config.FontSet
  /-- the 4096 bytes (R21) -/
  mem : Memory
  /-- V0-VF (R22, R23) -/
  V : Vector Byte 16
  /-- the index register (R24) -/
  I : Word
  /-- the program counter (R25) -/
  pc : Word
  /-- the return stack (R26) -/
  stack : Vector Word 16
  /-- the number of stack entries in use, 0..16 (R27) -/
  sp : Fin 17
  /-- the framebuffer (R28) -/
  fb : Frame
  /-- the keypad (R29) -/
  keys : Vector Bool 16
  /-- the delay timer (R30) -/
  DT : Byte
  /-- the sound timer (R30) -/
  ST : Byte
  /-- run or halt (R32) -/
  status : Status
  /-- the latched sound output (R33) -/
  soundReq : Bool
  /-- MODEL'S OWN: how many random bytes have been drawn (R41); indexes `Config.rand`. DESIGN CHOICE, log 2. -/
  draws : Nat
  /-- MODEL'S OWN: the operations the host will strobe next, first to come first (R37, R240). DESIGN CHOICE, log 3. -/
  inbox : List PortOp
  /-- MODEL'S OWN: what the output ports emitted, latest first (R36, R40). DESIGN CHOICE, log 4. -/
  outputs : List PortOutput
deriving DecidableEq, Repr

/-- Reasons a step stops with a fault: NONE. The spec gives every fatal fault its entry (status <- Halted(info),
60_exceptions R203), which is a next state, and a halted engine's operations do what R205 says. DEDUCED, log 5. -/
inductive Fault
deriving DecidableEq, Repr

/-- Reasons a step is refused. -/
inductive Refusal where
  /-- raised by an arm of exec whose instruction has no meaning yet; safe. No arm raises it. -/
  | notModelled (mnemonic : String)
deriving DecidableEq, Repr

/-- The outcome of an instruction or of a step. -/
abbrev Result := Host.Outcome State Fault Refusal

/-- Construction with a table for FONTSET (10_state R35, 70_reset R230, R231): no memory cell is listed, so memory reads
as the table and zeros. `draws`, `inbox` and `outputs` are the model's own (DESIGN CHOICE, logs 2, 3, 4). -/
def State.resetWith (font : Config.FontSet) : State where
  font := font
  mem := []
  V := Vector.replicate 16 0
  I := 0
  pc := 0x200
  stack := Vector.replicate 16 0
  sp := 0
  fb := 0
  keys := Vector.replicate 16 false
  DT := 0
  ST := 0
  status := .running
  soundReq := false
  draws := 0
  inbox := []
  outputs := []

/-- The machine right after reset, with the default table for FONTSET (R31). PRESUMED, log 1. -/
def State.reset : State := State.resetWith fontset

end Sys2Proof.Machine
end

