-- ==== Sys2Proof/Machine/Ops.lean ====
section
/-!
DEFINITION. The named operations over memory, registers, stack, framebuffer and ports; taking a fatal fault and the
one way back from it.
-/

namespace Sys2Proof.Machine

/-! ## Memory (20_memory R50-R54) -/

/-- What an unlisted address reads as: the reset contents, FONTSET and then zeros (10_state R31, R35).
DESIGN CHOICE, log 11. -/
def Memory.unlisted (font : Config.FontSet) (a : Nat) : Byte := if h : a < 80 then font[a] else 0

/-- MemRead(a, 1) (R54). -/
def Memory.read (font : Config.FontSet) : Memory → Nat → Byte
  | [], a => Memory.unlisted font a
  | (k, b) :: m, a => if k = a then b else Memory.read font m a

/-- Put a byte at an address and keep the canonical form: the entry goes away when the byte is what an unlisted
address reads as. -/
def Memory.put (font : Config.FontSet) : Memory → Nat → Byte → Memory
  | [], a, v => if v = Memory.unlisted font a then [] else [(a, v)]
  | (k, b) :: m, a, v =>
    if k < a then (k, b) :: Memory.put font m a v
    else
      let rest := if k = a then m else (k, b) :: m
      if v = Memory.unlisted font a then rest else (a, v) :: rest

/-- MemWrite(a, 1, v) for an address that exists; there is nothing to write elsewhere, and every instruction checks
before it writes (R53). DESIGN CHOICE, log 11. -/
def Memory.write (font : Config.FontSet) (m : Memory) (a : Nat) (v : Byte) : Memory :=
  if a < Config.memSize then m.put font a v else m

/-- Write bytes at consecutive addresses, in increasing order. -/
def Memory.store (font : Config.FontSet) (m : Memory) (base : Nat) : List Byte → Memory
  | [] => m
  | b :: bs => Memory.store font (m.write font base b) (base + 1) bs

/-- Read `n` bytes at consecutive addresses. -/
def Memory.load (font : Config.FontSet) (m : Memory) (base : Nat) : Nat → List Byte
  | 0 => []
  | n + 1 => m.read font base :: Memory.load font m (base + 1) n

/-- The canonical form: addresses strictly rising and inside the address space, no entry equal to what an unlisted
address reads as. -/
def Memory.wf (font : Config.FontSet) : Memory → Bool
  | [] => true
  | (k, b) :: m =>
    decide (k < Config.memSize) && (b != Memory.unlisted font k) && m.all (fun c => decide (k < c.1)) &&
      Memory.wf font m

/-- The bounds check of an access to `n` bytes at `base` (R52, R53): the lowest accessed address at or above 4096,
if there is one. Addresses are exact numbers; an access to no byte has none. -/
def outOfRange (base n : Nat) : Option Nat :=
  if n = 0 ∨ base + n ≤ Config.memSize then none else some (max base Config.memSize)

/-! ## Registers (10_state R22-R25, R30) -/

/-- Read Vx. -/
def State.getV (s : State) (x : Reg) : Byte := s.V.get x

/-- Write Vx. -/
def State.setV (s : State) (x : Reg) (b : Byte) : State := { s with V := s.V.set x.val b }

/-- VF, register 0xF (R23). -/
def regF : Reg := 15

/-- V0, the offset register of BNNN (R107). -/
def reg0 : Reg := 0

/-- Write I. -/
def State.setI (s : State) (w : Word) : State := { s with I := w }

/-- Write pc. -/
def State.setPc (s : State) (w : Word) : State := { s with pc := w }

/-- Write DT. -/
def State.setDT (s : State) (b : Byte) : State := { s with DT := b }

/-- Write ST. -/
def State.setST (s : State) (b : Byte) : State := { s with ST := b }

/-- Replace the memory. -/
def State.setMem (s : State) (m : Memory) : State := { s with mem := m }

/-- Replace the framebuffer. -/
def State.setFb (s : State) (f : Frame) : State := { s with fb := f }

/-- Write sound_req. -/
def State.setSoundReq (s : State) (b : Bool) : State := { s with soundReq := b }

/-- Write status. -/
def State.setStatus (s : State) (t : Status) : State := { s with status := t }

/-- Replace the operations still to come. -/
def State.setInbox (s : State) (ops : List PortOp) : State := { s with inbox := ops }

/-- Record an output (R36, R40). -/
def State.emit (s : State) (o : PortOutput) : State := { s with outputs := o :: s.outputs }

/-- The byte at an address. -/
def State.byteAt (s : State) (a : Nat) : Byte := s.mem.read s.font a

/-- The bytes at `n` consecutive addresses. -/
def State.loadBytes (s : State) (base n : Nat) : List Byte := s.mem.load s.font base n

/-- Write bytes at consecutive addresses. -/
def State.storeBytes (s : State) (base : Nat) (bs : List Byte) : State := s.setMem (s.mem.store s.font base bs)

/-! ## The random input (10_state R41) -/

/-- The byte the next draw supplies: a free value. -/
def State.nextRand (s : State) : Byte := Config.rand s.draws

/-- One draw has been made. -/
def State.countDraw (s : State) : State := { s with draws := s.draws + 1 }

/-! ## The return stack (10_state R26, R27) -/

/-- Push: write stack[sp], then increment sp; none when 16 entries are in use. -/
def State.push (s : State) (w : Word) : Option State :=
  if h : s.sp.val < 16 then
    some { s with stack := s.stack.set s.sp.val w, sp := ⟨s.sp.val + 1, by omega⟩ }
  else none

/-- Pop: decrement sp, then read stack[sp], which keeps its value; none when no entry is in use. -/
def State.pop (s : State) : Option (Word × State) :=
  if h : 0 < s.sp.val then
    some (s.stack[s.sp.val - 1]'(by have := s.sp.isLt; omega),
          { s with sp := ⟨s.sp.val - 1, by have := s.sp.isLt; omega⟩ })
  else none

/-! ## The framebuffer (10_state R28) -/

/-- The cell of column `x` and row `y` on the wrapping screen: (y mod 32)*64 + (x mod 64) (R28, 42_display R151). -/
def cellIndex (x y : Nat) : Nat := (y % Config.fbHeight) * Config.fbWidth + x % Config.fbWidth

/-- fb[k]. -/
def Frame.cell (f : Frame) (k : Nat) : Bool := f.getLsbD k

/-- fb[k] <- not fb[k]. -/
def Frame.toggle (f : Frame) (k : Nat) : Frame := f ^^^ BitVec.twoPow 2048 k

/-- All cells false (R150). -/
def Frame.clear : Frame := 0

/-- The pixel at column `x` and row `y`. -/
def State.pixel (s : State) (x y : Nat) : Bool := Frame.cell s.fb (cellIndex x y)

/-- The display port's sequence of 2048 booleans, index y*64 + x (R38). -/
def Frame.toList (f : Frame) : List Bool := (List.range Config.fbCells).map (Frame.cell f)

/-! ## The keypad (10_state R29) -/

/-- keys[k]. -/
def State.getKey (s : State) (k : Fin 16) : Bool := s.keys.get k

/-- keys[k] <- pressed. -/
def State.setKey (s : State) (k : Fin 16) (pressed : Bool) : State := { s with keys := s.keys.set k.val pressed }

/-! ## Taking a fatal fault (60_exceptions R200-R205) -/

/-- The codes of R200 (decision D19). -/
def FaultKind.code : FaultKind → Nat
  | .fetch => 1
  | .data => 1
  | .stackOverflow => 2
  | .stackUnderflow => 2
  | .keyIndex => 3

/-- The code R200 gives an event: 16 for UnknownOpcode; the other outputs have none. -/
def PortOutput.code : PortOutput → Option Nat
  | .unknownOpcode _ _ => some 16
  | .loadResult _ => none
  | .keyResult _ => none
  | .display _ => none

/-- TAKING A FATAL FAULT (R203): status <- Halted(info) and no other change; pc keeps what the fetch left. -/
def State.halt (s : State) (kind : FaultKind) (pc : Word) (opcode : Option Word) (addr : Option Nat) : State :=
  s.setStatus (.halted ⟨kind.code, kind, pc, opcode, addr⟩)

/-- The address `a` of the instruction whose handler runs: the fetch has left pc = a + 2 (20_memory R56, R12).
DEDUCED, log 9. -/
def State.instrAddr (s : State) : Word := s.pc - 2

/-- A handler's fatal fault: the record holds the instruction's address and its word (R204). DEDUCED, log 9. -/
def State.faultOf (s : State) (i : Instr) (kind : FaultKind) (addr : Option Nat) : State :=
  s.halt kind s.instrAddr (some (encode i)) addr

/-- op_reset, the only return from a halt (R205, 70_reset R230): every element of the spec's state gets its reset
value, memory from the FONTSET it is built with. The host's coming operations, the draw count and the record of outputs
are not the engine's and stay (DESIGN CHOICE, logs 2, 3, 4). -/
def opReset (s : State) : State :=
  { State.resetWith s.font with draws := s.draws, inbox := s.inbox, outputs := s.outputs }

end Sys2Proof.Machine
end

