-- ==== Sys2Proof/Machine/Flags.lean ====
section
/-!
DEFINITION. The flag computations that write VF (10_state R23, 41_alu R119) and the order of the two writes (R129).
-/

namespace Sys2Proof.Machine

/-- A flag as VF holds it: 1 or 0. -/
def flagByte (f : Bool) : Byte := if f then 1 else 0

/-- Carry of a + b: the exact sum exceeds 255 (R119, R126). -/
def carryOut (a b : Byte) : Bool := decide (a.toNat + b.toNat > 255)

/-- No borrow in a - b: a ≥ b (R119, R127). -/
def noBorrow (a b : Byte) : Bool := decide (a.toNat ≥ b.toNat)

/-- The bit a right shift moves out: old bit 0 (R128). -/
def outRight (a : Byte) : Bool := a.getLsbD 0

/-- The bit a left shift moves out: old bit 7 (R131). -/
def outLeft (a : Byte) : Bool := a.getLsbD 7

/-- Write the result to Vx, then the flag to VF, which wins when x = F (R129). -/
def State.writeResultFlag (s : State) (x : Reg) (result : Byte) (flag : Bool) : State :=
  (s.setV x result).setV regF (flagByte flag)

/-- The writes of a shift (R128, R131, R129): the flag last, as the spec decides. With the switch of conflict C3
off, the source's literal order: VF first, then Vx shifted as it then stands. DEDUCED, log 6. -/
def State.writeShift (s : State) (x : Reg) (shift : Byte → Byte) (flag : Bool) : State :=
  if Config.shiftFlagLast then s.writeResultFlag x (shift (s.getV x)) flag
  else
    let s1 := s.setV regF (flagByte flag)
    s1.setV x (shift (s1.getV x))

end Sys2Proof.Machine
end

