-- ==== Sys2Proof/Machine/Alu.lean ====
section
/-!
DEFINITION. Register loads and ALU (41_alu R119-R132).
-/

namespace Sys2Proof.Machine

/-- 6XNN LD Vx, byte (R120). -/
def execLdImm (x : Reg) (nn : Byte) (s : State) : Result :=
  .next (s.setV x nn)

/-- 7XNN ADD Vx, byte (R121): wraps; VF is no flag here. -/
def execAddImm (x : Reg) (nn : Byte) (s : State) : Result :=
  .next (s.setV x (s.getV x + nn))

/-- 8XY0 LD Vx, Vy (R122). -/
def execLdReg (x y : Reg) (s : State) : Result :=
  .next (s.setV x (s.getV y))

/-- 8XY1 OR (R123): VF is not written as a flag. -/
def execOr (x y : Reg) (s : State) : Result :=
  .next (s.setV x (s.getV x ||| s.getV y))

/-- 8XY2 AND (R124). -/
def execAnd (x y : Reg) (s : State) : Result :=
  .next (s.setV x (s.getV x &&& s.getV y))

/-- 8XY3 XOR (R125). -/
def execXor (x y : Reg) (s : State) : Result :=
  .next (s.setV x (s.getV x ^^^ s.getV y))

/-- 8XY4 ADD Vx, Vy (R126): VF = carry. -/
def execAdd (x y : Reg) (s : State) : Result :=
  .next (s.writeResultFlag x (s.getV x + s.getV y) (carryOut (s.getV x) (s.getV y)))

/-- 8XY5 SUB Vx, Vy (R127): VF = no borrow. -/
def execSub (x y : Reg) (s : State) : Result :=
  .next (s.writeResultFlag x (s.getV x - s.getV y) (noBorrow (s.getV x) (s.getV y)))

/-- 8XY6 SHR Vx (R128): Y is ignored (R78). -/
def execShr (x _y : Reg) (s : State) : Result :=
  .next (s.writeShift x (· >>> 1) (outRight (s.getV x)))

/-- 8XY7 SUBN Vx, Vy (R130): Vy - Vx, VF = no borrow. -/
def execSubn (x y : Reg) (s : State) : Result :=
  .next (s.writeResultFlag x (s.getV y - s.getV x) (noBorrow (s.getV y) (s.getV x)))

/-- 8XYE SHL Vx (R131): Y is ignored (R78). -/
def execShl (x _y : Reg) (s : State) : Result :=
  .next (s.writeShift x (· <<< 1) (outLeft (s.getV x)))

/-- CXNN RND Vx, byte (R132): one draw of the rand input under the mask NN. -/
def execRnd (x : Reg) (nn : Byte) (s : State) : Result :=
  .next (s.countDraw.setV x (s.nextRand &&& nn))

end Sys2Proof.Machine
end

