-- ==== Sys2Proof/Machine/Operands.lean ====
section
/-!
DEFINITION. The operand forms (00_scope R10, R11, 30_encoding R72): zero extension of immediates and registers,
the addresses reached through I, and the digits FX33 stores.
-/

namespace Sys2Proof.Machine

/-- zext_16 of a byte (R11). -/
def zext16 (b : Byte) : Word := b.setWidth 16

/-- zext_16 of NNN (R72). -/
def zextAddr (nnn : Addr) : Word := nnn.setWidth 16

/-- The effective address I + k, an exact integer (20_memory R52). -/
def State.eaI (s : State) (k : Nat) : Nat := s.I.toNat + k

/-- FX33's three digits of a byte: hundreds, tens, ones (44_index_memory R173). -/
def bcdDigits (v : Byte) : List Byte :=
  [BitVec.ofNat 8 (v.toNat / 100), BitVec.ofNat 8 (v.toNat / 10 % 10), BitVec.ofNat 8 (v.toNat % 10)]

/-- The registers V0..Vx in order (R174). -/
def State.regsUpTo (s : State) (x : Reg) : List Byte := (s.V.toList).take (x.val + 1)

/-- V[k] <- mem[I + k] for k in 0..x (R175). -/
def State.loadRegsUpTo (s : State) (x : Reg) : State :=
  { s with V := Vector.ofFn fun k : Fin 16 => if k ≤ x then s.byteAt (s.eaI k.val) else s.V.get k }

/-- The lowest-numbered pressed key (43_keypad_timer R163). -/
def State.firstKey (s : State) : Option (Fin 16) :=
  (List.finRange 16).find? s.getKey

/-- The key index in a register: none when it is 16 or more (R159). -/
def keyIndexOf (b : Byte) : Option (Fin 16) :=
  if h : b.toNat < 16 then some ⟨b.toNat, h⟩ else none

/-- Skip the next word: pc + 2 when the condition holds (40_control R108). -/
def State.skipIf (s : State) (c : Bool) : State := if c then s.setPc (s.pc + 2) else s

end Sys2Proof.Machine
end

