-- ==== Sys2Proof/Machine/Control.lean ====
section
/-!
DEFINITION. Control transfer and skips (40_control R100-R109). pc is a + 2 when a meaning starts (R12).
-/

namespace Sys2Proof.Machine

/-- 00EE RET (R100): StackUnderflow when no entry is in use, else pc <- the popped entry. -/
def execRet (s : State) : Result :=
  match s.pop with
  | none => .next (s.faultOf .ret .stackUnderflow none)
  | some (w, s1) => .next (s1.setPc w)

/-- 1NNN JP (R101). -/
def execJp (nnn : Addr) (s : State) : Result :=
  .next (s.setPc (zextAddr nnn))

/-- 2NNN CALL (R102): StackOverflow when 16 entries are in use, else push the return address and jump. -/
def execCall (nnn : Addr) (s : State) : Result :=
  match s.push s.pc with
  | none => .next (s.faultOf (.call nnn) .stackOverflow none)
  | some s1 => .next (s1.setPc (zextAddr nnn))

/-- 3XNN SE Vx, byte (R103). -/
def execSeImm (x : Reg) (nn : Byte) (s : State) : Result :=
  .next (s.skipIf (s.getV x == nn))

/-- 4XNN SNE Vx, byte (R104). -/
def execSneImm (x : Reg) (nn : Byte) (s : State) : Result :=
  .next (s.skipIf (s.getV x != nn))

/-- 5XY0 SE Vx, Vy (R105). -/
def execSeReg (x y : Reg) (s : State) : Result :=
  .next (s.skipIf (s.getV x == s.getV y))

/-- 9XY0 SNE Vx, Vy (R106). -/
def execSneReg (x y : Reg) (s : State) : Result :=
  .next (s.skipIf (s.getV x != s.getV y))

/-- BNNN JP V0, addr (R107): always V0. -/
def execJpV0 (nnn : Addr) (s : State) : Result :=
  .next (s.setPc (zext16 (s.getV reg0) + zextAddr nnn))

end Sys2Proof.Machine
end

