-- ==== Sys2Proof/Machine/Display.lean ====
section
/-!
DEFINITION. Clear and the sprite blitter (42_display R150-R152).
-/

namespace Sys2Proof.Machine

/-- The framebuffer and the collision bit while a sprite is drawn. -/
structure Canvas where
  fb : Frame
  collision : Bool
deriving DecidableEq, Repr

/-- XOR one set sprite pixel into cell `k`: a collision when the cell was set (R151). -/
def Canvas.hit (c : Canvas) (k : Nat) : Canvas :=
  ⟨Frame.toggle c.fb k, c.collision || Frame.cell c.fb k⟩

/-- One column of a sprite row: bit 7 - col decides, most significant bit first (R151). -/
def Canvas.drawBit (x y : Nat) (b : Byte) (c : Canvas) (col : Nat) : Canvas :=
  if b.getLsbD (7 - col) then c.hit (cellIndex (x + col) y) else c

/-- One sprite row at screen row `y`: columns 0 to 7. -/
def Canvas.drawRow (c : Canvas) (x y : Nat) (b : Byte) : Canvas :=
  (List.range 8).foldl (Canvas.drawBit x y b) c

/-- The sprite's rows from screen row `y` down. -/
def Canvas.drawRows (c : Canvas) (x y : Nat) : List Byte → Canvas
  | [] => c
  | b :: bs => Canvas.drawRows (c.drawRow x y b) x (y + 1) bs

/-- Draw sprite bytes at (x0, y0) on a framebuffer (R151). -/
def drawSprite (fb : Frame) (x0 y0 : Nat) (sprite : List Byte) : Canvas :=
  Canvas.drawRows ⟨fb, false⟩ x0 y0 sprite

/-- 00E0 CLS (R150). -/
def execCls (s : State) : Result :=
  .next (s.setFb Frame.clear)

/-- DXYN DRW Vx, Vy, N (R151): all row addresses are checked first; coordinates are read before VF is written. -/
def execDrw (x y : Reg) (n : Fin 16) (s : State) : Result :=
  match outOfRange (s.eaI 0) n.val with
  | some bad => .next (s.faultOf (.drw x y n) .data (some bad))
  | none =>
    let c := drawSprite s.fb (s.getV x).toNat (s.getV y).toNat (s.loadBytes (s.eaI 0) n.val)
    .next ((s.setFb c.fb).setV regF (flagByte c.collision))

end Sys2Proof.Machine
end

