-- ==== Sys2Proof/Machine/IndexMemory.lean ====
section
/-!
DEFINITION. Index register, font address, BCD and block transfer (44_index_memory R170-R175).
-/

namespace Sys2Proof.Machine

/-- ANNN LD I, addr (R170). -/
def execLdI (nnn : Addr) (s : State) : Result :=
  .next (s.setI (zextAddr nnn))

/-- FX1E ADD I, Vx (R171): wraps at 16 bits; VF is not written. -/
def execAddIVx (x : Reg) (s : State) : Result :=
  .next (s.setI (s.I + zext16 (s.getV x)))

/-- FX29 LD F, Vx (R172): I <- Vx * 5, the whole byte. -/
def execLdFVx (x : Reg) (s : State) : Result :=
  .next (s.setI (zext16 (s.getV x) * 5))

/-- FX33 LD B, Vx (R173): the three decimal digits at I, I+1, I+2. -/
def execLdBVx (x : Reg) (s : State) : Result :=
  match outOfRange (s.eaI 0) 3 with
  | some bad => .next (s.faultOf (.ldBVx x) .data (some bad))
  | none => .next (s.storeBytes (s.eaI 0) (bcdDigits (s.getV x)))

/-- FX55 LD [I], Vx (R174): V0..Vx to memory at I; I is unchanged. -/
def execLdMemVx (x : Reg) (s : State) : Result :=
  match outOfRange (s.eaI 0) (x.val + 1) with
  | some bad => .next (s.faultOf (.ldMemVx x) .data (some bad))
  | none => .next (s.storeBytes (s.eaI 0) (s.regsUpTo x))

/-- FX65 LD Vx, [I] (R175): V0..Vx from memory at I; I is unchanged. -/
def execLdVxMem (x : Reg) (s : State) : Result :=
  match outOfRange (s.eaI 0) (x.val + 1) with
  | some bad => .next (s.faultOf (.ldVxMem x) .data (some bad))
  | none => .next (s.loadRegsUpTo x)

end Sys2Proof.Machine
end

