-- ==== Sys2Proof/Machine/KeypadTimer.lean ====
section
/-!
DEFINITION. Keypad and timer instructions (43_keypad_timer R159-R165).
-/

namespace Sys2Proof.Machine

/-- EX9E SKP Vx (R160): KeyIndexFault when Vx ≥ 16 (R159). -/
def execSkp (x : Reg) (s : State) : Result :=
  match keyIndexOf (s.getV x) with
  | none => .next (s.faultOf (.skp x) .keyIndex (some (s.getV x).toNat))
  | some k => .next (s.skipIf (s.getKey k))

/-- EXA1 SKNP Vx (R161): KeyIndexFault when Vx ≥ 16 (R159). -/
def execSknp (x : Reg) (s : State) : Result :=
  match keyIndexOf (s.getV x) with
  | none => .next (s.faultOf (.sknp x) .keyIndex (some (s.getV x).toNat))
  | some k => .next (s.skipIf (!s.getKey k))

/-- FX07 LD Vx, DT (R162). -/
def execLdVxDt (x : Reg) (s : State) : Result :=
  .next (s.setV x s.DT)

/-- FX0A LD Vx, K (R163): the lowest pressed key, or pc - 2 so that the instruction is fetched again. -/
def execLdVxK (x : Reg) (s : State) : Result :=
  match s.firstKey with
  | some k => .next (s.setV x (BitVec.ofNat 8 k.val))
  | none => .next (s.setPc (s.pc - 2))

/-- FX15 LD DT, Vx (R164). -/
def execLdDtVx (x : Reg) (s : State) : Result :=
  .next (s.setDT (s.getV x))

/-- FX18 LD ST, Vx (R165): sound_req waits for the next tick. -/
def execLdStVx (x : Reg) (s : State) : Result :=
  .next (s.setST (s.getV x))

end Sys2Proof.Machine
end

