-- ==== Sys2Proof/Machine/Unknown.lean ====
section
/-!
DEFINITION. The recoverable UnknownOpcode (60_exceptions R206, 10_state R40).
-/

namespace Sys2Proof.Machine

/-- A word that matches no pattern (R206): the event with its address and the word; nothing else changes. -/
def execUnknownOpcode (op : Word) (s : State) : Result :=
  .next (s.emit (.unknownOpcode s.instrAddr op))

end Sys2Proof.Machine
end

