-- ==== Sys2Proof/Machine/Fetch.lean ====
section
/-!
DEFINITION. Instruction fetch (20_memory R55-R57, R60), and placing a word where the fetch reads it.
-/

namespace Sys2Proof.Machine

/-- The fetch's bounds check (R56): the recorded address when pc + 1 ≥ 4096. -/
def State.fetchFault (s : State) : Option Nat :=
  if s.pc.toNat + 1 ≥ Config.memSize then some (max s.pc.toNat Config.memSize) else none

/-- The word at pc, big-endian (R55). -/
def State.fetchWord (s : State) : Word :=
  wordOfBytes (s.byteAt s.pc.toNat) (s.byteAt (s.pc.toNat + 1))

/-- The fetch advances pc by exactly 2 (R56). -/
def State.advance (s : State) : State := s.setPc (s.pc + 2)

/-- Where `withFetchWord` places the word: at pc, or at 0x200 when nothing can be fetched at pc. -/
def State.fetchBase (s : State) : Word :=
  match s.fetchFault with
  | none => s.pc
  | some _ => BitVec.ofNat 16 Config.progBase

/-- Store a word at the fetch address, with the engine running and no operation waiting. DESIGN CHOICE, log 16. -/
def State.placeWord (s : State) (op : Word) : State :=
  (((s.setPc s.fetchBase).setStatus .running).setInbox []).storeBytes s.fetchBase.toNat [highByte op, lowByte op]

end Sys2Proof.Machine
end

