-- ==== Sys2Proof/Machine/Ports.lean ====
section
/-!
DEFINITION. The host's port operations other than op_cycle and op_reset (10_state R36, 60_exceptions R210, R214,
70_reset R232, R240). op_reset stands in Ops.lean beside the fault entry it undoes.
-/

namespace Sys2Proof.Machine

/-- A timer's next value: one less, and zero stays zero (R210). -/
def countDown (b : Byte) : Byte := if b = 0 then 0 else b - 1

/-- op_tick (R210): while halted it only clears sound_req (R205). -/
def opTick (s : State) : State :=
  match s.status with
  | .halted _ => s.setSoundReq false
  | .running =>
    ((s.setDT (countDown s.DT)).setST (countDown s.ST)).setSoundReq (s.ST != 0)

/-- The key an op_key index names: none outside [0, 16) (R214). -/
def keyOfIndex (index : Int) : Option (Fin 16) :=
  if h : 0 ≤ index ∧ index < 16 then some ⟨index.toNat, by omega⟩ else none

/-- op_key(index, pressed) (R214): accepted while halted too (R205). -/
def opKey (index : Int) (pressed : Bool) (s : State) : State :=
  match keyOfIndex index with
  | some k => (s.setKey k pressed).emit (.keyResult .ok)
  | none => s.emit (.keyResult .keyError)

/-- op_load(bytes) (R232): all or nothing at 0x200; accepted in any state and clears no halt (R205). -/
def opLoad (bytes : List Byte) (s : State) : State :=
  if bytes.length + Config.progBase > Config.memSize then s.emit (.loadResult .romTooLarge)
  else (s.storeBytes Config.progBase bytes).emit (.loadResult .ok)

/-- The display read (R38): the framebuffer goes out and no state changes. -/
def opReadDisplay (s : State) : State := s.emit (.display s.fb)

/-- The boot sequence before the first frame (R233): reset, then load the ROM. -/
def bootSchedule (rom : List Byte) : List PortOp := [.reset, .load rom]

/-- One frame of the intended schedule (R240): CYCLES_PER_FRAME cycles, one tick, a display read, then the keys
that changed. DESIGN CHOICE, log 3. -/
def frameSchedule (keys : List (Int × Bool)) : List PortOp :=
  List.replicate Config.cyclesPerFrame .cycle ++ [.tick, .readDisplay] ++ keys.map fun k => .key k.1 k.2

end Sys2Proof.Machine
end

