-- ==== Sys2Proof/Machine/Cycle.lean ====
section
/-!
DEFINITION. One op_cycle (30_encoding R80) and the performance of any port operation (10_state R36, R37).
-/

namespace Sys2Proof.Machine

/-- op_cycle (R80): nothing while halted; else fetch, decode and execute, the checks in the order of R207. -/
def opCycle (s : State) : Result :=
  match s.status with
  | .halted _ => .next s
  | .running =>
    match s.fetchFault with
    | some bad => .next (s.halt .fetch s.pc none (some bad))
    | none => exec (decode s.fetchWord) s.advance

/-- Perform one port operation, atomically (R37). -/
def runPort (op : PortOp) (s : State) : Result :=
  match op with
  | .cycle => opCycle s
  | .tick => .next (opTick s)
  | .key index pressed => .next (opKey index pressed s)
  | .load bytes => .next (opLoad bytes s)
  | .reset => .next (opReset s)
  | .readDisplay => .next (opReadDisplay s)

/-- The operation that comes next and the state without it: the first that the host has listed, and op_cycle when
it has listed none (R240). DESIGN CHOICE, log 3. -/
def nextPort (s : State) : PortOp × State :=
  match s.inbox with
  | [] => (.cycle, s)
  | op :: rest => (op, s.setInbox rest)

end Sys2Proof.Machine
end

