-- ==== Sys2Proof/Machine/Step.lean ====
section
/-!
DEFINITION. One step: one port operation (10_state R37).
-/

namespace Sys2Proof.Machine

/-- One step of the machine: the operation that comes next. -/
def step (s : State) : Host.Outcome State Fault Refusal :=
  runPort (nextPort s).1 (nextPort s).2

/-- The state whose very next step fetches and runs the word `w` of `nbits` bits. DESIGN CHOICE, log 16. -/
def State.withFetchWord (s : State) (nbits w : Nat) : State :=
  s.placeWord (BitVec.ofNat 16 (w % 2 ^ nbits))

end Sys2Proof.Machine
end

