-- ==== Sys2Proof/Safety.lean ====
section
/-!
DEFINITION. What counts as a sound state and a safe run, in the terms the statements use.
-/

namespace Sys2Proof.Machine

/-- A fault record as R204 describes it: the kind's code, no opcode exactly for a Fetch fault, and an address (or
key index) of the kind's range. -/
def FaultInfo.wf (f : FaultInfo) : Bool :=
  f.code == f.kind.code && (f.opcode.isNone == (f.kind == .fetch)) &&
  match f.kind, f.addr with
  | .fetch, some a => decide (Config.memSize ≤ a)
  | .data, some a => decide (Config.memSize ≤ a)
  | .keyIndex, some a => decide (16 ≤ a ∧ a < 256)
  | .stackOverflow, none => true
  | .stackUnderflow, none => true
  | _, _ => false

/-- A halted status holds a well-formed record. -/
def Status.wf : Status → Bool
  | .running => true
  | .halted f => f.wf

/-- The invariant of the machine: memory is in its canonical form; pc is at most 0x10FE (10_state R25); every stack
entry is at most 0x1000 (40_control R100); a fault record is as R204 says. -/
def MachineInv (s : State) : Prop :=
  s.mem.wf s.font = true ∧ s.pc.toNat ≤ 0x10FE ∧ (∀ k : Fin 16, (s.stack.get k).toNat ≤ 0x1000) ∧ s.status.wf = true

/-- The engine has taken no fatal fault (00_scope R13: a well-formed program never does). -/
def State.isRunning (s : State) : Prop := s.status = .running

/-- The operation that comes next is an op_cycle: the host has listed one first, or has listed none (R36, R240;
DESIGN CHOICE, log 3). The cycle leaves `s.inbox.tail` to come. -/
def State.CycleNext (s : State) : Prop :=
  s.inbox = [] ∨ ∃ rest, s.inbox = .cycle :: rest

/-- The state after `n` steps from reset, of an engine built with the table `font` for FONTSET (R31) and with the host's
operations `ops` to come. -/
def ReachedBy (font : Config.FontSet) (ops : List PortOp) (n : Nat) (s : State) : Prop :=
  Host.Core.run Sys2Proof.core n { State.resetWith font with inbox := ops } = .next s

/-! ## Frames: what is left unchanged -/

/-- The parts of the state. -/
inductive Part where
  | font | mem | V | I | pc | stack | sp | fb | keys | DT | ST | status | soundReq | draws | inbox | outputs
deriving DecidableEq, Repr

/-- The part reads the same after as before: memory byte by byte, registers one by one. -/
def Part.same (p : Part) (s t : State) : Prop :=
  match p with
  | .font => t.font = s.font
  | .mem => ∀ a, t.byteAt a = s.byteAt a
  | .V => ∀ r, t.getV r = s.getV r
  | .I => t.I = s.I
  | .pc => t.pc = s.pc
  | .stack => t.stack = s.stack
  | .sp => t.sp = s.sp
  | .fb => t.fb = s.fb
  | .keys => ∀ k, t.getKey k = s.getKey k
  | .DT => t.DT = s.DT
  | .ST => t.ST = s.ST
  | .status => t.status = s.status
  | .soundReq => t.soundReq = s.soundReq
  | .draws => t.draws = s.draws
  | .inbox => t.inbox = s.inbox
  | .outputs => t.outputs = s.outputs

/-- Every part but the listed ones is unchanged. -/
def UnchangedBut (parts : List Part) (s t : State) : Prop :=
  ∀ p, p ∉ parts → p.same s t

/-- Every register but the listed ones is unchanged. -/
def RegsBut (xs : List Reg) (s t : State) : Prop :=
  ∀ r, r ∉ xs → t.getV r = s.getV r

/-- Every byte of memory outside `n` bytes at `base` is unchanged. -/
def BytesBut (base n : Nat) (s t : State) : Prop :=
  ∀ a, a < base ∨ base + n ≤ a → t.byteAt a = s.byteAt a

/-- The parts an instruction may write, by its rule's pseudocode (30_encoding R81). -/
def footprint : Instr → List Part
  | .cls => [.fb]
  | .ret => [.pc, .sp, .status]
  | .call _ => [.pc, .stack, .sp, .status]
  | .jp _ | .jpV0 _ => [.pc]
  | .seImm _ _ | .sneImm _ _ | .seReg _ _ | .sneReg _ _ => [.pc]
  | .ldImm _ _ | .addImm _ _ | .ldReg _ _ | .orReg _ _ | .andReg _ _ | .xorReg _ _ => [.V]
  | .addReg _ _ | .subReg _ _ | .subnReg _ _ | .shr _ _ | .shl _ _ => [.V]
  | .rnd _ _ => [.V, .draws]
  | .drw _ _ _ => [.V, .fb, .status]
  | .skp _ | .sknp _ => [.pc, .status]
  | .ldVxDt _ => [.V]
  | .ldVxK _ => [.V, .pc]
  | .ldDtVx _ => [.DT]
  | .ldStVx _ => [.ST]
  | .ldI _ | .addIVx _ | .ldFVx _ => [.I]
  | .ldBVx _ | .ldMemVx _ => [.mem, .status]
  | .ldVxMem _ => [.V, .status]
  | .unknownOpcode _ => [.outputs]

/-- The instruction may write this register: it is a named destination, or VF for an instruction that writes the
flag (10_state R23). -/
def MayWriteReg (r : Reg) : Instr → Prop
  | .ldImm x _ | .addImm x _ | .rnd x _ => r = x
  | .ldReg x _ | .orReg x _ | .andReg x _ | .xorReg x _ => r = x
  | .addReg x _ | .subReg x _ | .subnReg x _ | .shr x _ | .shl x _ => r = x ∨ r = 15
  | .drw _ _ _ => r = 15
  | .ldVxDt x | .ldVxK x => r = x
  | .ldVxMem x => r ≤ x
  | .cls | .ret | .jp _ | .call _ | .ldI _ | .jpV0 _ => False
  | .seImm _ _ | .sneImm _ _ | .seReg _ _ | .sneReg _ _ => False
  | .skp _ | .sknp _ | .ldDtVx _ | .ldStVx _ | .addIVx _ | .ldFVx _ | .ldBVx _ | .ldMemVx _ => False
  | .unknownOpcode _ => False

/-! ## The opcode map in arithmetic -/

/-- The number each row of the opcode map stands for (30_encoding R73), its nibbles at their places by exact
arithmetic: 0xn1XYN = n1*4096 + X*256 + Y*16 + N. -/
def opcodeMapNumber : Instr → Nat
  | .cls => 0x00E0
  | .ret => 0x00EE
  | .jp nnn => 0x1000 + nnn.toNat
  | .call nnn => 0x2000 + nnn.toNat
  | .seImm x nn => 0x3000 + x.val * 256 + nn.toNat
  | .sneImm x nn => 0x4000 + x.val * 256 + nn.toNat
  | .seReg x y => 0x5000 + x.val * 256 + y.val * 16
  | .ldImm x nn => 0x6000 + x.val * 256 + nn.toNat
  | .addImm x nn => 0x7000 + x.val * 256 + nn.toNat
  | .ldReg x y => 0x8000 + x.val * 256 + y.val * 16
  | .orReg x y => 0x8001 + x.val * 256 + y.val * 16
  | .andReg x y => 0x8002 + x.val * 256 + y.val * 16
  | .xorReg x y => 0x8003 + x.val * 256 + y.val * 16
  | .addReg x y => 0x8004 + x.val * 256 + y.val * 16
  | .subReg x y => 0x8005 + x.val * 256 + y.val * 16
  | .shr x y => 0x8006 + x.val * 256 + y.val * 16
  | .subnReg x y => 0x8007 + x.val * 256 + y.val * 16
  | .shl x y => 0x800E + x.val * 256 + y.val * 16
  | .sneReg x y => 0x9000 + x.val * 256 + y.val * 16
  | .ldI nnn => 0xA000 + nnn.toNat
  | .jpV0 nnn => 0xB000 + nnn.toNat
  | .rnd x nn => 0xC000 + x.val * 256 + nn.toNat
  | .drw x y n => 0xD000 + x.val * 256 + y.val * 16 + n.val
  | .skp x => 0xE09E + x.val * 256
  | .sknp x => 0xE0A1 + x.val * 256
  | .ldVxDt x => 0xF007 + x.val * 256
  | .ldVxK x => 0xF00A + x.val * 256
  | .ldDtVx x => 0xF015 + x.val * 256
  | .ldStVx x => 0xF018 + x.val * 256
  | .addIVx x => 0xF01E + x.val * 256
  | .ldFVx x => 0xF029 + x.val * 256
  | .ldBVx x => 0xF033 + x.val * 256
  | .ldMemVx x => 0xF055 + x.val * 256
  | .ldVxMem x => 0xF065 + x.val * 256
  | .unknownOpcode op => op.toNat

/-! ## Sprites -/

/-- The sprite of DXYN covers the pixel (px, py): some 1 bit of some row lands on it, the screen wrapping on both
axes (42_display R151). -/
def SpriteCovers (s : State) (x y : Reg) (n : Fin 16) (px py : Nat) : Prop :=
  ∃ row col : Nat, row < n.val ∧ col < 8 ∧
    (s.byteAt (s.I.toNat + row)).getLsbD (7 - col) = true ∧
    ((s.getV x).toNat + col) % 64 = px ∧ ((s.getV y).toNat + row) % 32 = py

end Sys2Proof.Machine
end

