-- ==== Sys2Proof/Certificates/Slice0/Obligations.lean ====
section
/-!
DEFINITION. The statements for the provers. Each docstring names the rule it formalises, or says which choice (of the
spec's own, D<n> of 92_eei_decisions.md, or of the model's, log <n>) a clause rests on. Results are written in exact
arithmetic on natural numbers and single bits, not by the model's own operations. That state a rule does not write is
unchanged (every UnchangedBut, RegsBut and BytesBut below) is R81's reading, the spec's choice D18. A statement that
cites a rule whole has no such clause: the frame of its instructions is InstructionsStayInTheirFootprint and
RegistersChangeOnlyAsDestinations. `exec` runs with pc already advanced past the instruction (R12), so `s.pc - 2` is the
instruction's address.
-/

open Sys2Proof Sys2Proof.Machine

/-! ## Encoding -/

/-- Every well-formed instruction is what its encoding decodes to, every operand at every value (R71-R73). The
catch-all keeps its word (log 10). -/
def Obligations.DecodeOfEncodeIsIdentity : Prop :=
  ∀ i : Instr, i.wf = true → decode (encode i) = i

/-- Every word is the encoding of the well-formed instruction it decodes to: no bit is dropped, the ignored Y of
8XY6 and 8XYE included (R73, R76-R78; log 10). -/
def Obligations.EncodeOfDecodeIsIdentity : Prop :=
  ∀ op : Word, encode (decode op) = op ∧ (decode op).wf = true

/-- Every instruction's word is the number the opcode map gives its row, in exact arithmetic (R72, R73). -/
def Obligations.EncodingFollowsTheOpcodeMap : Prop :=
  ∀ i : Instr, (encode i).toNat = opcodeMapNumber i

/-- R75: no word matches two patterns, and the catch-all applies only when none matches. -/
def Obligations.PatternsArePairwiseDisjoint : Prop :=
  ∀ op : Word,
    (∀ r₁ ∈ opcodeRows, ∀ r₂ ∈ opcodeRows, r₁.hits op = true → r₂.hits op = true → r₁ = r₂) ∧
    ((∃ w, decode op = .unknownOpcode w) → ∀ r ∈ opcodeRows, r.hits op = false)

/-- The UnknownOpcode space is exactly the one R76 lists, by the word's nibbles; the exact last nibble of 5XY0 and
9XY0 is the spec's choice D14. -/
def Obligations.UnknownSpaceIsTheListedOne : Prop :=
  ∀ op : Word,
    let w := op.toNat
    let n1 := w / 4096
    let n := w % 16
    let nn := w % 256
    (decode op = .unknownOpcode op ↔
      (n1 = 0x0 ∧ w ≠ 0x00E0 ∧ w ≠ 0x00EE) ∨
      (n1 = 0x5 ∧ n ≠ 0) ∨
      (n1 = 0x8 ∧ n ∈ [0x8, 0x9, 0xA, 0xB, 0xC, 0xD, 0xF]) ∨
      (n1 = 0x9 ∧ n ≠ 0) ∨
      (n1 = 0xE ∧ nn ∉ [0x9E, 0xA1]) ∨
      (n1 = 0xF ∧ nn ∉ [0x07, 0x0A, 0x15, 0x18, 0x1E, 0x29, 0x33, 0x55, 0x65]))

/-- Words written out from the encodings of R73, one of each format, and two of the catch-all. That 0x5121 is the
catch-all, its last nibble not being 0, is the spec's choice D14 (log 10). -/
def Obligations.SampleWordsDecodeAsWritten : Prop :=
  decode 0b0000000011101110 = .ret ∧
  decode 0b0001001000110100 = .jp 0x234 ∧
  decode 0b0111000000000010 = .addImm 0 0x02 ∧
  decode 0b1000001000110110 = .shr 2 3 ∧
  decode 0b1101000100100101 = .drw 1 2 5 ∧
  decode 0b1111001001100101 = .ldVxMem 2 ∧
  decode 0b0101000100100001 = .unknownOpcode 0x5121 ∧
  decode 0b0000000100100011 = .unknownOpcode 0x0123

/-- A decoder consumes exactly two bytes, the first the high one (R55, R70). That a list too short for an instruction is
refused, by the name truncated, is the model's choice (log 10). -/
def Obligations.DecodingConsumesTwoBytes : Prop :=
  (∀ (i : Instr) (rest : List Byte), i.wf = true → decodeBytes (encodeBytes i ++ rest) = .ok (i, rest)) ∧
  (∀ b : Byte, decodeBytes [b] = .error .truncated) ∧ decodeBytes [] = .error .truncated

/-! ## Fetch, cycles and steps -/

/-- A step whose next operation is an op_cycle, listed by the host or not (log 3), on a running engine runs the
instruction whose two bytes stand at pc, with pc advanced by 2, the operation taken from the list and nothing else
added (R55, R56, R80). That an odd pc fetches as an even one does is the spec's choice D2 (R57, log 7). -/
def Obligations.StepRunsTheDecodedInstruction : Prop :=
  ∀ (i : Instr) (s : State), i.wf = true → s.status = .running → s.CycleNext → s.pc.toNat + 1 < 4096 →
    s.byteAt s.pc.toNat = highByte (encode i) → s.byteAt (s.pc.toNat + 1) = lowByte (encode i) →
    step s = exec i ((s.setInbox s.inbox.tail).setPc (s.pc + 2))

/-- A fetch at pc + 1 ≥ 4096 halts the engine with a Fetch record and changes nothing else, pc included (R55, R56; the
record and pc are the spec's choices D4, D5, D19). The op_cycle is listed by the host or not (log 3), and a listed one is
taken from the list. -/
def Obligations.FetchOutsideMemoryHalts : Prop :=
  ∀ s : State, s.status = .running → s.CycleNext → 4096 ≤ s.pc.toNat + 1 →
    ∃ t, step s = .next t ∧ t.inbox = s.inbox.tail ∧ UnchangedBut [.status, .inbox] s t ∧
      t.status = .halted ⟨1, .fetch, s.pc, none, some (if 4096 ≤ s.pc.toNat then s.pc.toNat else 4096)⟩

/-- Every step answers a next state: the spec leaves no operation and no word without an effect (R77, R203, R205, R206;
log 5). -/
def Obligations.EveryStepAnswersANextState : Prop :=
  ∀ s : State, ∃ t, step s = .next t

/-- The spec's choice D5 (R205): while halted, a cycle changes nothing, a tick only clears sound_req, a key changes only
keys, a load only memory, a display read nothing, and the halt stays; only a reset leaves it. Waiting operations and
recorded outputs are the model's own (logs 3, 4). -/
def Obligations.HaltedEngineIsFrozenUntilReset : Prop :=
  ∀ (s t : State) (f : FaultInfo), s.status = .halted f → step s = .next t →
    (s.inbox = [] → t = s) ∧
    (∀ rest, s.inbox = .cycle :: rest → UnchangedBut [.inbox] s t) ∧
    (∀ rest, s.inbox = .tick :: rest → t.soundReq = false ∧ UnchangedBut [.soundReq, .inbox] s t) ∧
    (∀ k p rest, s.inbox = .key k p :: rest → UnchangedBut [.keys, .outputs, .inbox] s t) ∧
    (∀ bs rest, s.inbox = .load bs :: rest → UnchangedBut [.mem, .outputs, .inbox] s t) ∧
    (∀ rest, s.inbox = .readDisplay :: rest → UnchangedBut [.outputs, .inbox] s t) ∧
    (t.status ≠ .halted f → ∃ rest, s.inbox = .reset :: rest ∧ t.status = .running)

/-- The spec's choices D4, D5 and D19 (R203, R204): an instruction that leaves the running state halts with a record of
its own address, its own word and its kind's code, and writes nothing else. -/
def Obligations.FatalFaultsArePrecise : Prop :=
  ∀ (i : Instr) (s t : State), s.status = .running → exec i s = .next t → t.status ≠ .running →
    UnchangedBut [.status] s t ∧
    ∃ kind addr, kind ≠ .fetch ∧ t.status = .halted ⟨kind.code, kind, s.pc - 2, some (encode i), addr⟩

/-! ## The host's operations -/

/-- op_tick (R210): both timers lose one and floor at zero, sound_req tells whether the sound timer was nonzero before;
while halted the timers stand and sound_req is cleared (the spec's choice D5). -/
def Obligations.TickCountsBothTimersDown : Prop :=
  ∀ (s : State) (rest : List PortOp), s.inbox = .tick :: rest →
    ∃ t, step s = .next t ∧ t.inbox = rest ∧ UnchangedBut [.DT, .ST, .soundReq, .inbox] s t ∧
      (s.status = .running →
        t.DT.toNat = s.DT.toNat - 1 ∧ t.ST.toNat = s.ST.toNat - 1 ∧ (t.soundReq = true ↔ s.ST.toNat ≠ 0)) ∧
      (s.status ≠ .running → t.DT = s.DT ∧ t.ST = s.ST ∧ t.soundReq = false)

/-- op_key (R214): sets the one key it names; an index outside [0, 16) changes no key and is answered KeyError (the
spec's choice D11). -/
def Obligations.KeypressSetsTheNamedKey : Prop :=
  ∀ (s : State) (index : Int) (pressed : Bool) (rest : List PortOp), s.inbox = .key index pressed :: rest →
    ∃ t, step s = .next t ∧ t.inbox = rest ∧ UnchangedBut [.keys, .outputs, .inbox] s t ∧
      (∀ k : Fin 16, t.getKey k = if index = (k.val : Int) then pressed else s.getKey k) ∧
      t.outputs = .keyResult (if 0 ≤ index ∧ index < 16 then .ok else .keyError) :: s.outputs

/-- op_load (R232): a ROM that fits is copied to 0x200 and every other byte stays; one that does not fit changes no
byte (the spec's choice D12) and is answered RomTooLarge. Memory is in its canonical form (log 11). -/
def Obligations.LoadCopiesARomThatFits : Prop :=
  ∀ (s : State) (bytes : List Byte) (rest : List PortOp), s.mem.wf s.font = true → s.inbox = .load bytes :: rest →
    ∃ t, step s = .next t ∧ t.inbox = rest ∧ UnchangedBut [.mem, .outputs, .inbox] s t ∧
      (bytes.length + 0x200 ≤ 4096 →
        (∀ k (hk : k < bytes.length), t.byteAt (0x200 + k) = bytes[k]) ∧
        BytesBut 0x200 bytes.length s t ∧ t.outputs = .loadResult .ok :: s.outputs) ∧
      (4096 < bytes.length + 0x200 →
        (∀ a, t.byteAt a = s.byteAt a) ∧ t.outputs = .loadResult .romTooLarge :: s.outputs)

/-- The reset values (R35, R31), whatever table the engine is built with for FONTSET: the table's bytes, zeros above them,
pc = 0x200 and everything else zero. The model's reset state takes the default table `fontset` (D9, log 1); status and
sound_req are the spec's own (D20, D21). -/
def Obligations.ResetStateHoldsTheSpecValues : Prop :=
  State.reset = State.resetWith fontset ∧
  ∀ font : Config.FontSet,
  let s := State.resetWith font
  (∀ a (ha : a < 80), s.byteAt a = font[a]) ∧
  (∀ a, 80 ≤ a → a < 4096 → s.byteAt a = 0) ∧
  (∀ r, s.getV r = 0) ∧ s.I = 0 ∧ s.pc = 0x200 ∧ (∀ k : Fin 16, s.stack.get k = 0) ∧ s.sp = 0 ∧
  (∀ k, Frame.cell s.fb k = false) ∧ (∀ k, s.getKey k = false) ∧ s.DT = 0 ∧ s.ST = 0 ∧
  s.status = .running ∧ s.soundReq = false

/-- op_reset (R230): from any state, halted or not, every element of the spec's state gets its reset value (D21 for
status and sound_req), memory the table it was built with for FONTSET (R31, D9). That waiting operations, recorded outputs and the draw count stay is the model's (logs 2-4). -/
def Obligations.ResetRestoresEveryElement : Prop :=
  ∀ (s : State) (rest : List PortOp), s.inbox = .reset :: rest →
    ∃ t, step s = .next t ∧ UnchangedBut [.draws, .inbox, .outputs] (State.resetWith s.font) t ∧
      t.inbox = rest ∧ t.outputs = s.outputs ∧ t.draws = s.draws

/-- The display is 2048 booleans, row-major, index y*64 + x (R28, R38); reading it changes no state but the record of
outputs (log 4). -/
def Obligations.DisplayReadIsRowMajor : Prop :=
  (∀ s : State, (Frame.toList s.fb).length = 2048 ∧
    ∀ x y, x < 64 → y < 32 → (Frame.toList s.fb)[y * 64 + x]? = some (s.pixel x y)) ∧
  (∀ (s : State) (rest : List PortOp), s.inbox = .readDisplay :: rest →
    ∃ t, step s = .next t ∧ t.outputs = .display s.fb :: s.outputs ∧ UnchangedBut [.outputs, .inbox] s t ∧
      t.inbox = rest)

/-! ## Control transfer -/

/-- 1NNN (R101): pc <- NNN and nothing else. -/
def Obligations.JumpGoesToItsAddress : Prop :=
  ∀ (nnn : Addr) (s : State),
    ∃ t, exec (.jp nnn) s = .next t ∧ t.pc.toNat = nnn.toNat ∧ UnchangedBut [.pc] s t

/-- BNNN (R107): pc <- V0 + NNN, exact, and nothing else. -/
def Obligations.OffsetJumpAddsV0 : Prop :=
  ∀ (nnn : Addr) (s : State),
    ∃ t, exec (.jpV0 nnn) s = .next t ∧ t.pc.toNat = (s.getV 0).toNat + nnn.toNat ∧ UnchangedBut [.pc] s t

/-- 3XNN, 4XNN, 5XY0, 9XY0 (R103-R106): pc moves on by 2 exactly when the comparison holds; nothing else changes. -/
def Obligations.ComparisonsSkipTheNextWord : Prop :=
  ∀ (x y : Reg) (nn : Byte) (s : State),
    (∃ t, exec (.seImm x nn) s = .next t ∧ UnchangedBut [.pc] s t ∧
      t.pc = if (s.getV x).toNat = nn.toNat then s.pc + 2 else s.pc) ∧
    (∃ t, exec (.sneImm x nn) s = .next t ∧ UnchangedBut [.pc] s t ∧
      t.pc = if (s.getV x).toNat = nn.toNat then s.pc else s.pc + 2) ∧
    (∃ t, exec (.seReg x y) s = .next t ∧ UnchangedBut [.pc] s t ∧
      t.pc = if (s.getV x).toNat = (s.getV y).toNat then s.pc + 2 else s.pc) ∧
    (∃ t, exec (.sneReg x y) s = .next t ∧ UnchangedBut [.pc] s t ∧
      t.pc = if (s.getV x).toNat = (s.getV y).toNat then s.pc else s.pc + 2)

/-- 2NNN with a free entry (R102): stack[sp] <- the return address, sp + 1, pc <- NNN; the other entries and everything
else stay. The use of sp is the spec's choice D10. -/
def Obligations.CallPushesTheReturnAddress : Prop :=
  ∀ (nnn : Addr) (s : State), s.sp.val < 16 →
    ∃ t, exec (.call nnn) s = .next t ∧ UnchangedBut [.pc, .stack, .sp] s t ∧
      t.pc.toNat = nnn.toNat ∧ t.sp.val = s.sp.val + 1 ∧
      ∀ k : Fin 16, t.stack.get k = if k.val = s.sp.val then s.pc else s.stack.get k

/-- 00EE with an entry in use (R100): sp - 1, pc <- stack[sp]; every entry keeps its value. The use of sp is the spec's
choice D10. -/
def Obligations.ReturnPopsTheTopEntry : Prop :=
  ∀ (s : State) (k : Fin 16), s.sp.val = k.val + 1 →
    ∃ t, exec .ret s = .next t ∧ UnchangedBut [.pc, .sp] s t ∧ t.pc = s.stack.get k ∧ t.sp.val = k.val

/-- A push with 16 entries and a pop with none halt with a StackFault record (R100, R102, R27; the record and the frozen
state are the spec's choices D4, D5, D19). -/
def Obligations.StackFaultsHalt : Prop :=
  ∀ s : State,
    (s.sp.val = 16 → ∀ nnn : Addr,
      ∃ t, exec (.call nnn) s = .next t ∧ UnchangedBut [.status] s t ∧
        t.status = .halted ⟨2, .stackOverflow, s.pc - 2, some (encode (.call nnn)), none⟩) ∧
    (s.sp.val = 0 →
      ∃ t, exec .ret s = .next t ∧ UnchangedBut [.status] s t ∧
        t.status = .halted ⟨2, .stackUnderflow, s.pc - 2, some 0x00EE, none⟩)

/-- A call and then a return, whatever ran in between, as long as the stack is as the call left it: pc is the
instruction after the call and sp is as before (95_test_vectors S7). -/
def Obligations.ReturnUndoesCall : Prop :=
  ∀ (nnn : Addr) (s t u v : State), s.sp.val < 16 → exec (.call nnn) s = .next t →
    u.stack = t.stack → u.sp = t.sp → exec .ret u = .next v →
    v.pc = s.pc ∧ v.sp = s.sp ∧ v.status = u.status

/-! ## Loads and ALU -/

/-- 6XNN and 8XY0 (R120, R122): Vx <- NN, Vx <- Vy; VF only as the destination, no fault; 8XX0 leaves the state
unchanged. -/
def Obligations.LoadsWriteTheDestination : Prop :=
  ∀ (x y : Reg) (nn : Byte) (s : State),
    ((encode (.ldImm x nn)).toNat = 0x6000 + x.val * 256 + nn.toNat ∧
      ∃ t, exec (.ldImm x nn) s = .next t ∧ t.getV x = nn ∧
        (x ≠ 15 → t.getV 15 = s.getV 15) ∧ t.status = s.status) ∧
    ((encode (.ldReg x y)).toNat = 0x8000 + x.val * 256 + y.val * 16 ∧
      ∃ t, exec (.ldReg x y) s = .next t ∧ t.getV x = s.getV y ∧
        (x ≠ 15 → t.getV 15 = s.getV 15) ∧ t.status = s.status ∧ (x = y → UnchangedBut [] s t))

/-- 7XNN (R121): Vx <- (Vx + NN) mod 256; VF only as the destination, no fault. -/
def Obligations.AddImmediateWrapsWithoutFlag : Prop :=
  ∀ (x : Reg) (nn : Byte) (s : State),
    (encode (.addImm x nn)).toNat = 0x7000 + x.val * 256 + nn.toNat ∧
    ∃ t, exec (.addImm x nn) s = .next t ∧ (t.getV x).toNat = ((s.getV x).toNat + nn.toNat) % 256 ∧
      (x ≠ 15 → t.getV 15 = s.getV 15) ∧ t.status = s.status

/-- 8XY1, 8XY2, 8XY3 (R123-R125): bit by bit; VF changes only as the destination. -/
def Obligations.LogicWorksBitByBit : Prop :=
  ∀ (x y : Reg) (s : State),
    (∃ t, exec (.orReg x y) s = .next t ∧ RegsBut [x] s t ∧ UnchangedBut [.V] s t ∧
      ∀ b, (t.getV x).getLsbD b = ((s.getV x).getLsbD b || (s.getV y).getLsbD b)) ∧
    (∃ t, exec (.andReg x y) s = .next t ∧ RegsBut [x] s t ∧ UnchangedBut [.V] s t ∧
      ∀ b, (t.getV x).getLsbD b = ((s.getV x).getLsbD b && (s.getV y).getLsbD b)) ∧
    (∃ t, exec (.xorReg x y) s = .next t ∧ RegsBut [x] s t ∧ UnchangedBut [.V] s t ∧
      ∀ b, (t.getV x).getLsbD b = ((s.getV x).getLsbD b ^^ (s.getV y).getLsbD b))

/-- 8XY4 (R126): Vx <- the sum mod 256, then VF <- 1 iff the exact sum exceeds 255; with x = F the flag stays; no fault. -/
def Obligations.AddSetsCarry : Prop :=
  ∀ (x y : Reg) (s : State),
    (encode (.addReg x y)).toNat = 0x8004 + x.val * 256 + y.val * 16 ∧
    ∃ t, exec (.addReg x y) s = .next t ∧
      (x ≠ 15 → (t.getV x).toNat = ((s.getV x).toNat + (s.getV y).toNat) % 256) ∧
      (t.getV 15).toNat = (if (s.getV x).toNat + (s.getV y).toNat > 255 then 1 else 0) ∧ t.status = s.status

/-- 8XY5 (R127): Vx <- (Vx - Vy) mod 256, then VF <- 1 iff no borrow; with x = F the flag stays; no fault. -/
def Obligations.SubtractSetsNoBorrow : Prop :=
  ∀ (x y : Reg) (s : State),
    (encode (.subReg x y)).toNat = 0x8005 + x.val * 256 + y.val * 16 ∧
    ∃ t, exec (.subReg x y) s = .next t ∧
      (x ≠ 15 → ((t.getV x).toNat : Int) = ((s.getV x).toNat - (s.getV y).toNat : Int) % 256) ∧
      (t.getV 15).toNat = (if (s.getV x).toNat ≥ (s.getV y).toNat then 1 else 0) ∧ t.status = s.status

/-- 8XY7 (R130): Vx <- (Vy - Vx) mod 256, then VF <- 1 iff no borrow; with x = F the flag stays; no fault. -/
def Obligations.ReverseSubtractSetsNoBorrow : Prop :=
  ∀ (x y : Reg) (s : State),
    (encode (.subnReg x y)).toNat = 0x8007 + x.val * 256 + y.val * 16 ∧
    ∃ t, exec (.subnReg x y) s = .next t ∧
      (x ≠ 15 → ((t.getV x).toNat : Int) = ((s.getV y).toNat - (s.getV x).toNat : Int) % 256) ∧
      (t.getV 15).toNat = (if (s.getV y).toNat ≥ (s.getV x).toNat then 1 else 0) ∧ t.status = s.status

/-- 8XY6 and 8XYE (R128, R131, R78): one bit of Vx out into VF, a zero in, Y without effect. That VF ends with the flag
when x = F is the spec's choice D6 (log 6). -/
def Obligations.ShiftsMoveOneBitIntoVF : Prop :=
  ∀ (x y : Reg) (s : State),
    (∃ t, exec (.shr x y) s = .next t ∧
      (x ≠ 15 → (t.getV x).toNat = (s.getV x).toNat / 2) ∧ (t.getV 15).toNat = (s.getV x).toNat % 2 ∧
      RegsBut [x, 15] s t ∧ UnchangedBut [.V] s t) ∧
    (∃ t, exec (.shl x y) s = .next t ∧
      (x ≠ 15 → (t.getV x).toNat = (s.getV x).toNat * 2 % 256) ∧ (t.getV 15).toNat = (s.getV x).toNat / 128 ∧
      RegsBut [x, 15] s t ∧ UnchangedBut [.V] s t) ∧
    (∀ y' : Reg, exec (.shr x y) s = exec (.shr x y') s ∧ exec (.shl x y) s = exec (.shl x y') s)

/-- CXNN (R132, R41): Vx is one free draw under the mask, whatever the draw; the spec's choice D8, the draw being the
free value at the count of draws (log 2). Bits outside the mask are 0. -/
def Obligations.RandomByteIsMasked : Prop :=
  ∀ (x : Reg) (nn : Byte) (s : State),
    ∃ t, exec (.rnd x nn) s = .next t ∧ t.draws = s.draws + 1 ∧
      (∀ b, (t.getV x).getLsbD b = ((Config.rand s.draws).getLsbD b && nn.getLsbD b)) ∧
      RegsBut [x] s t ∧ UnchangedBut [.V, .draws] s t

/-! ## Display -/

/-- 00E0 (R150): every cell false, and no other state changes. -/
def Obligations.ClearEmptiesTheScreen : Prop :=
  ∀ s : State,
    encode .cls = 0x00E0 ∧ ∃ t, exec .cls s = .next t ∧ (∀ k, Frame.cell t.fb k = false) ∧ UnchangedBut [.fb] s t

/-- DXYN whose rows all exist (R151): every pixel is flipped exactly when the sprite covers it, wrapping on both axes; VF
is 1 iff some covered pixel was set, else 0; with N = 0 nothing is read and VF is 0. The framebuffer and VF alone
change. -/
def Obligations.DrawFlipsExactlyTheCoveredPixels : Prop :=
  ∀ (x y : Reg) (n : Fin 16) (s : State), (∀ row, row < n.val → s.I.toNat + row < 4096) →
    ∃ t, exec (.drw x y n) s = .next t ∧
      (∀ px py, px < 64 → py < 32 →
        (t.pixel px py = true ↔ ¬(s.pixel px py = true ↔ SpriteCovers s x y n px py))) ∧
      ((∃ px py, px < 64 ∧ py < 32 ∧ s.pixel px py = true ∧ SpriteCovers s x y n px py) → t.getV 15 = 1) ∧
      ((¬∃ px py, px < 64 ∧ py < 32 ∧ s.pixel px py = true ∧ SpriteCovers s x y n px py) → t.getV 15 = 0) ∧
      RegsBut [15] s t ∧ UnchangedBut [.fb, .V] s t

/-- DXYN with a row at or above 4096 (R52, R53, R151): a Data record of the lowest such address and nothing drawn. Exact
addresses, no partial effect and the record are the spec's choices D3, D4, D5, D19. -/
def Obligations.DrawOutsideMemoryHalts : Prop :=
  ∀ (x y : Reg) (n : Fin 16) (s : State) (bad row : Nat),
    row < n.val → bad = s.I.toNat + row → 4096 ≤ bad → (∀ j, j < row → s.I.toNat + j < 4096) →
    ∃ t, exec (.drw x y n) s = .next t ∧ UnchangedBut [.status] s t ∧
      t.status = .halted ⟨1, .data, s.pc - 2, some (encode (.drw x y n)), some bad⟩

/-- Drawing the same sprite twice at the same place (95_test_vectors S8, R151): every pixel is as before the first draw,
and the second draw's VF is 1 when some 1 bit of the sprite fell on a pixel that was off (on an empty screen: when
the sprite has a 1 bit at all). -/
def Obligations.DrawingTwiceRestoresTheScreen : Prop :=
  ∀ (x y : Reg) (n : Fin 16) (s t u : State), (∀ row, row < n.val → s.I.toNat + row < 4096) →
    exec (.drw x y n) s = .next t → t.getV x = s.getV x → t.getV y = s.getV y →
    exec (.drw x y n) t = .next u →
    (∀ px py, u.pixel px py = s.pixel px py) ∧
    ((∃ row col, row < n.val ∧ col < 8 ∧ (s.byteAt (s.I.toNat + row)).getLsbD (7 - col) = true ∧
        s.pixel ((s.getV x).toNat + col) ((s.getV y).toNat + row) = false) → u.getV 15 = 1)

/-! ## Keypad and timers -/

/-- EX9E and EXA1 with a key index (R160, R161): pc moves on by 2 exactly when the key is pressed, or is not; nothing
else changes. -/
def Obligations.KeySkipsTestTheKey : Prop :=
  ∀ (x : Reg) (k : Fin 16) (s : State), (s.getV x).toNat = k.val →
    (∃ t, exec (.skp x) s = .next t ∧ UnchangedBut [.pc] s t ∧
      t.pc = if s.getKey k = true then s.pc + 2 else s.pc) ∧
    (∃ t, exec (.sknp x) s = .next t ∧ UnchangedBut [.pc] s t ∧
      t.pc = if s.getKey k = true then s.pc else s.pc + 2)

/-- EX9E and EXA1 with Vx ≥ 16 (R159): a KeyIndexFault with that index and nothing else. The fault is the spec's choice
D7, its record and the frozen state D4, D5, D19. -/
def Obligations.KeyIndexOutOfRangeHalts : Prop :=
  ∀ (x : Reg) (s : State), 16 ≤ (s.getV x).toNat →
    (∃ t, exec (.skp x) s = .next t ∧ UnchangedBut [.status] s t ∧
      t.status = .halted ⟨3, .keyIndex, s.pc - 2, some (encode (.skp x)), some (s.getV x).toNat⟩) ∧
    (∃ t, exec (.sknp x) s = .next t ∧ UnchangedBut [.status] s t ∧
      t.status = .halted ⟨3, .keyIndex, s.pc - 2, some (encode (.sknp x)), some (s.getV x).toNat⟩)

/-- FX07, FX15, FX18 (R162, R164, R165): Vx <- DT, DT <- Vx, ST <- Vx; nothing else, sound_req included. -/
def Obligations.TimerTransfersMoveOneByte : Prop :=
  ∀ (x : Reg) (s : State),
    (∃ t, exec (.ldVxDt x) s = .next t ∧ t.getV x = s.DT ∧ RegsBut [x] s t ∧ UnchangedBut [.V] s t) ∧
    (∃ t, exec (.ldDtVx x) s = .next t ∧ t.DT = s.getV x ∧ UnchangedBut [.DT] s t) ∧
    (∃ t, exec (.ldStVx x) s = .next t ∧ t.ST = s.getV x ∧ UnchangedBut [.ST] s t)

/-- FX0A (R163): the lowest pressed key goes to Vx; with none pressed pc goes back by 2 and nothing else changes. -/
def Obligations.KeyWaitTakesTheLowestKeyOrRewinds : Prop :=
  ∀ (x : Reg) (s : State),
    (∀ k : Fin 16, s.getKey k = true → (∀ j, j < k → s.getKey j = false) →
      ∃ t, exec (.ldVxK x) s = .next t ∧ (t.getV x).toNat = k.val ∧ RegsBut [x] s t ∧ UnchangedBut [.V] s t) ∧
    ((∀ k, s.getKey k = false) →
      ∃ t, exec (.ldVxK x) s = .next t ∧ t.pc = s.pc - 2 ∧ UnchangedBut [.pc] s t)

/-- A cycle that waits at FX0A leaves pc as it was (R163, 95_test_vectors S9) and every other part of the state too (the
spec's choice D18, log 14), the list of the host's operations apart, from which a listed op_cycle is taken (log 3). That
an odd pc fetches is the spec's choice D2 (log 7). -/
def Obligations.KeyWaitLeavesTheStateAsItWas : Prop :=
  ∀ (x : Reg) (s : State), s.status = .running → s.CycleNext → s.pc.toNat + 1 < 4096 →
    s.byteAt s.pc.toNat = highByte (encode (.ldVxK x)) →
    s.byteAt (s.pc.toNat + 1) = lowByte (encode (.ldVxK x)) →
    (∀ k, s.getKey k = false) → step s = .next (s.setInbox s.inbox.tail)

/-! ## Index register and memory -/

/-- ANNN, FX1E, FX29 (R170-R172): I <- NNN; I <- (I + Vx) mod 2^16; I <- Vx * 5, the whole byte; nothing else, VF
included. -/
def Obligations.IndexLoadsWriteI : Prop :=
  ∀ (x : Reg) (nnn : Addr) (s : State),
    (∃ t, exec (.ldI nnn) s = .next t ∧ t.I.toNat = nnn.toNat ∧ UnchangedBut [.I] s t) ∧
    (∃ t, exec (.addIVx x) s = .next t ∧ t.I.toNat = (s.I.toNat + (s.getV x).toNat) % 65536 ∧
      UnchangedBut [.I] s t) ∧
    (∃ t, exec (.ldFVx x) s = .next t ∧ t.I.toNat = (s.getV x).toNat * 5 ∧ UnchangedBut [.I] s t)

/-- FX33 in range (R173): the hundreds, tens and ones of Vx at I, I+1, I+2, every other byte as before, I unchanged.
Memory is in its canonical form (log 11). -/
def Obligations.BcdStoresThreeDigits : Prop :=
  ∀ (x : Reg) (s : State), s.mem.wf s.font = true → s.I.toNat + 2 < 4096 →
    ∃ t, exec (.ldBVx x) s = .next t ∧
      (t.byteAt s.I.toNat).toNat = (s.getV x).toNat / 100 ∧
      (t.byteAt (s.I.toNat + 1)).toNat = (s.getV x).toNat / 10 % 10 ∧
      (t.byteAt (s.I.toNat + 2)).toNat = (s.getV x).toNat % 10 ∧
      BytesBut s.I.toNat 3 s t ∧ UnchangedBut [.mem] s t

/-- FX55 in range (R174): V0..Vx at I.., every other byte as before, I unchanged (the last is the spec's choice D18).
Memory is in its canonical form (log 11). -/
def Obligations.BlockStoreWritesV0ToVx : Prop :=
  ∀ (x : Reg) (s : State), s.mem.wf s.font = true → s.I.toNat + x.val < 4096 →
    ∃ t, exec (.ldMemVx x) s = .next t ∧
      (∀ k : Reg, k ≤ x → t.byteAt (s.I.toNat + k.val) = s.getV k) ∧
      BytesBut s.I.toNat (x.val + 1) s t ∧ UnchangedBut [.mem] s t

/-- FX65 in range (R175): V0..Vx from memory at I.., the other registers as before, I unchanged (the last is the spec's
choice D18). -/
def Obligations.BlockLoadReadsV0ToVx : Prop :=
  ∀ (x : Reg) (s : State), s.I.toNat + x.val < 4096 →
    ∃ t, exec (.ldVxMem x) s = .next t ∧
      (∀ k : Reg, k ≤ x → t.getV k = s.byteAt (s.I.toNat + k.val)) ∧
      (∀ k : Reg, x < k → t.getV k = s.getV k) ∧ UnchangedBut [.V] s t

/-- FX33, FX55 and FX65 that reach 4096 (R52, R53, R173-R175): a Data record of the lowest address out of range, no byte
and no register written. Exact addresses, no partial effect and the record are the spec's choices D3, D4, D5, D19. -/
def Obligations.BlockAccessOutsideMemoryHalts : Prop :=
  ∀ (x : Reg) (s : State),
    (4096 ≤ s.I.toNat + 2 →
      ∃ t, exec (.ldBVx x) s = .next t ∧ UnchangedBut [.status] s t ∧
        t.status = .halted ⟨1, .data, s.pc - 2, some (encode (.ldBVx x)), some (max s.I.toNat 4096)⟩) ∧
    (4096 ≤ s.I.toNat + x.val →
      (∃ t, exec (.ldMemVx x) s = .next t ∧ UnchangedBut [.status] s t ∧
        t.status = .halted ⟨1, .data, s.pc - 2, some (encode (.ldMemVx x)), some (max s.I.toNat 4096)⟩) ∧
      (∃ t, exec (.ldVxMem x) s = .next t ∧ UnchangedBut [.status] s t ∧
        t.status = .halted ⟨1, .data, s.pc - 2, some (encode (.ldVxMem x)), some (max s.I.toNat 4096)⟩))

/-- FX65 brings back what FX55 stored, in any later state whose memory reads the same and whose I is the same (R174, R175). -/
def Obligations.BlockLoadReturnsWhatBlockStoreWrote : Prop :=
  ∀ (x : Reg) (s t u v : State), s.mem.wf s.font = true → s.I.toNat + x.val < 4096 →
    exec (.ldMemVx x) s = .next t → (∀ a, u.byteAt a = t.byteAt a) → u.I = s.I → exec (.ldVxMem x) u = .next v →
    ∀ k : Reg, k ≤ x → v.getV k = s.getV k

/-- Fetch sees stores (R60, the spec's choice D13): after FX55 of two registers or more at I, the word fetched at I is
V0:V1. -/
def Obligations.StoredBytesAreFetched : Prop :=
  ∀ (x : Reg) (s t : State), s.mem.wf s.font = true → s.I.toNat + x.val < 4096 → 1 ≤ x.val →
    exec (.ldMemVx x) s = .next t →
    (t.setPc s.I).fetchWord.toNat = (s.getV 0).toNat * 256 + (s.getV 1).toNat

/-! ## The catch-all -/

/-- A word that matches no pattern (R206): the event with its address and the word, and no other change. The event's
content is the spec's choice D15; it is recorded in the outputs (log 4). -/
def Obligations.UnknownOpcodeOnlyEmitsItsEvent : Prop :=
  ∀ (op : Word) (s : State),
    ∃ t, exec (.unknownOpcode op) s = .next t ∧ t.outputs = .unknownOpcode (s.pc - 2) op :: s.outputs ∧
      UnchangedBut [.outputs] s t

/-! ## Whole-machine rules -/

/-- Every instruction writes only the parts its rule writes (R26, R28, R29, R30, R51, R81; that a rule's pseudocode is
the whole effect is the spec's reading D18). -/
def Obligations.InstructionsStayInTheirFootprint : Prop :=
  ∀ (i : Instr) (s t : State), exec i s = .next t → UnchangedBut (footprint i) s t

/-- A register changes only as a named destination or as VF of an instruction that writes the flag (R23; D6, D18). -/
def Obligations.RegistersChangeOnlyAsDestinations : Prop :=
  ∀ (i : Instr) (s t : State) (r : Reg), exec i s = .next t → ¬MayWriteReg r i → t.getV r = s.getV r

/-- A step that draws is an op_cycle of a running engine whose fetch is in range and whose word at pc is a CXNN, and it
draws once; no other instruction and no other operation of the host draws (R41, the spec's choice D8; the count is the
model's, log 2, and an op_cycle is listed or not, log 3). -/
def Obligations.OnlyRandomInstructionsDraw : Prop :=
  ∀ s t : State, step s = .next t → t.draws ≠ s.draws →
    s.CycleNext ∧ s.status = .running ∧ s.pc.toNat + 1 < 4096 ∧ (∃ x nn, decode s.fetchWord = .rnd x nn) ∧
    t.draws = s.draws + 1

/-- A step changes the sound output only by a tick or a reset (R33, R165; the latch is the spec's choice D20). -/
def Obligations.SoundChangesOnlyAtTickOrReset : Prop :=
  ∀ s t : State, step s = .next t → t.soundReq ≠ s.soundReq →
    ∃ rest, s.inbox = .tick :: rest ∨ s.inbox = .reset :: rest

/-- No step changes the table the engine was built with for FONTSET: stores to the font region change memory alone, and
a reset copies the same table again (R31, R35, 90_conflicts C5; the table as a configuration argument is the spec's
choice D9, its place in the state the model's, log 1). -/
def Obligations.FontTableNeverChanges : Prop :=
  ∀ s t : State, step s = .next t → t.font = s.font

/-- The reset state meets the invariant, whatever table the engine is built with for FONTSET (R31). -/
def Obligations.ResetMeetsTheInvariant : Prop :=
  ∀ font : Config.FontSet, MachineInv (State.resetWith font)

/-- Every step keeps the invariant: memory's canonical form (log 11), pc at most 0x10FE (R25), stack entries at most
0x1000 (R100), a fault record as R204 describes it (the spec's choice D19). -/
def Obligations.EveryStepKeepsTheInvariant : Prop :=
  ∀ s t : State, MachineInv s → step s = .next t → MachineInv t

/-- Whatever table the engine is built with for FONTSET (R31), and whatever the host does from reset, for however long,
the invariant holds. The host's schedule is the list of
operations to come (R240, the spec's choice D16; log 3). -/
def Obligations.EveryScheduleStaysSound : Prop :=
  ∀ (font : Config.FontSet) (ops : List PortOp) (n : Nat) (s : State), ReachedBy font ops n s → MachineInv s
end

