-- ==== Sys2Proof/Laws/Memory.lean ====
section
/-!
SUPPORT. The laws of memory: every operation keeps the canonical form; a read after a write; ranges of bytes; the
bounds check.
-/

namespace Sys2Proof.Machine

variable {font : Config.FontSet}

/-! ## The canonical form -/

theorem Memory.wf_cons {k : Nat} {b : Byte} {m : Memory} :
    Memory.wf font ((k, b) :: m) = true ↔
      k < 4096 ∧ b ≠ Memory.unlisted font k ∧ (∀ c ∈ m, k < c.1) ∧ Memory.wf font m = true := by
  simp [Memory.wf, and_assoc]

/-- An address below every entry is unlisted. -/
theorem Memory.read_below {m : Memory} {a : Nat} (h : ∀ c ∈ m, a < c.1) : m.read font a = Memory.unlisted font a := by
  induction m with
  | nil => rfl
  | cons e m ih =>
    have hne : e.1 ≠ a := by have := h e (by simp); omega
    simp [Memory.read, hne, ih fun c hc => h c (by simp [hc])]

/-- The entries of a memory after `put` are old entries or the new one. -/
theorem Memory.mem_put {m : Memory} {a : Nat} {v : Byte} {c : Host.Cell} (h : c ∈ m.put font a v) :
    c ∈ m ∨ c = (a, v) := by
  induction m with
  | nil => simp only [Memory.put] at h; split at h <;> simp_all
  | cons e m ih =>
    simp only [Memory.put] at h
    split at h
    · rcases List.mem_cons.mp h with rfl | h
      · simp
      · rcases ih h with h | h <;> simp [h]
    · split at h <;> split at h <;> simp_all <;> tauto

/-- `put` keeps the canonical form. -/
theorem Memory.wf_put {m : Memory} {a : Nat} {v : Byte} (hm : m.wf font = true) (ha : a < 4096) :
    (m.put font a v).wf font = true := by
  induction m with
  | nil =>
    simp only [Memory.put]
    split <;> simp_all [Memory.wf]
  | cons e m ih =>
    obtain ⟨hk, hb, hgt, hrest⟩ := Memory.wf_cons.mp hm
    simp only [Memory.put]
    split
    · rename_i hlt
      refine Memory.wf_cons.mpr ⟨hk, hb, fun c hc => ?_, ih hrest⟩
      rcases Memory.mem_put hc with hc | rfl
      · exact hgt c hc
      · exact hlt
    · rename_i hle
      split
      · split <;> assumption
      · rename_i hv
        split
        · rename_i he
          exact Memory.wf_cons.mpr ⟨ha, hv, fun c hc => he ▸ hgt c hc, hrest⟩
        · rename_i hne
          refine Memory.wf_cons.mpr ⟨ha, hv, fun c hc => ?_, hm⟩
          rcases List.mem_cons.mp hc with rfl | hc
          · simp only; omega
          · have := hgt c hc; omega

/-- A read after `put`. -/
theorem Memory.read_put {m : Memory} (hm : m.wf font = true) (a : Nat) (v : Byte) (b : Nat) :
    (m.put font a v).read font b = if b = a then v else m.read font b := by
  induction m with
  | nil =>
    have hsym : (a = b) = (b = a) := propext eq_comm
    by_cases hv : v = Memory.unlisted font a <;> by_cases h : b = a <;> simp [Memory.put, Memory.read, hsym, hv, h]
  | cons e m ih =>
    obtain ⟨hk, hb, hgt, hrest⟩ := Memory.wf_cons.mp hm
    have hbelow : Memory.read font m e.1 = Memory.unlisted font e.1 := Memory.read_below hgt
    simp only [Memory.put]
    split
    · rename_i hlt
      by_cases hb' : e.1 = b
      · have : b ≠ a := by omega
        simp [Memory.read, hb', this]
      · simp [Memory.read, hb', ih hrest]
    · rename_i hle
      by_cases he : e.1 = a
      · subst he
        by_cases hv : v = Memory.unlisted font e.1 <;> by_cases hba : b = e.1
        · subst hba; simp [hv, hbelow]
        · have hba' : e.1 ≠ b := fun h => hba h.symm
          simp [hv, hba, hba', Memory.read]
        · subst hba; simp [hv, Memory.read]
        · have hba' : e.1 ≠ b := fun h => hba h.symm
          simp [hv, hba, hba', Memory.read]
      · have hall : ∀ c ∈ e :: m, a < c.1 := by
          intro c hc
          rcases List.mem_cons.mp hc with rfl | hc
          · omega
          · have := hgt c hc; omega
        have hread : Memory.read font (e :: m) a = Memory.unlisted font a := Memory.read_below hall
        by_cases hv : v = Memory.unlisted font a <;> by_cases hba : b = a
        · subst hba; simp [hv, he, hread]
        · simp [hv, he, hba]
        · subst hba; simp [hv, he, Memory.read]
        · have hba' : a ≠ b := fun h => hba h.symm
          simp [hv, he, hba, hba', Memory.read]

/-! ## Writes -/

theorem Memory.wf_write {m : Memory} (hm : m.wf font = true) (a : Nat) (v : Byte) : (m.write font a v).wf font = true := by
  unfold Memory.write
  split
  · exact Memory.wf_put hm ‹_›
  · exact hm

/-- A read after a write: the byte written at its address, the old byte everywhere else. -/
theorem Memory.read_write {m : Memory} (hm : m.wf font = true) (a : Nat) (v : Byte) (b : Nat) :
    (m.write font a v).read font b = if b = a ∧ a < 4096 then v else m.read font b := by
  unfold Memory.write
  by_cases ha : a < 4096 <;> simp [ha, Memory.read_put hm]

theorem Memory.wf_store {bs : List Byte} {m : Memory} (hm : m.wf font = true) (base : Nat) :
    (m.store font base bs).wf font = true := by
  induction bs generalizing m base with
  | nil => exact hm
  | cons b bs ih => exact ih (Memory.wf_write hm base b) (base + 1)

/-- A read outside the stored bytes. -/
theorem Memory.read_store_outside {bs : List Byte} {m : Memory} (hm : m.wf font = true) {base a : Nat}
    (h : a < base ∨ base + bs.length ≤ a) : (m.store font base bs).read font a = m.read font a := by
  induction bs generalizing m base with
  | nil => rfl
  | cons b bs ih =>
    simp only [List.length_cons] at h
    have hne : ¬(a = base ∧ base < 4096) := by omega
    rw [Memory.store, ih (Memory.wf_write hm base b) (by omega), Memory.read_write hm, if_neg hne]

/-- A read of a stored byte. -/
theorem Memory.read_store_inside {bs : List Byte} {m : Memory} (hm : m.wf font = true) {base : Nat}
    (hfit : base + bs.length ≤ 4096) {k : Nat} (hk : k < bs.length) :
    (m.store font base bs).read font (base + k) = bs[k] := by
  induction bs generalizing m base k with
  | nil => simp at hk
  | cons b bs ih =>
    simp only [List.length_cons] at hfit hk
    cases k with
    | zero =>
      have hin : base = base ∧ base < 4096 := ⟨rfl, by omega⟩
      rw [Memory.store, Memory.read_store_outside (Memory.wf_write hm base b) (by omega),
        Memory.read_write hm]
      simp [hin]
    | succ k =>
      have := ih (Memory.wf_write hm base b) (base := base + 1) (by omega) (k := k) (by omega)
      rw [Memory.store, show base + (k + 1) = base + 1 + k by omega, this]
      simp

/-! ## Reads of a range -/

@[simp] theorem Memory.length_load (font : Config.FontSet) (m : Memory) (base n : Nat) : (m.load font base n).length = n := by
  induction n generalizing base with
  | zero => rfl
  | succ n ih => simp [Memory.load, ih]

theorem Memory.getElem_load (font : Config.FontSet) (m : Memory) (base n k : Nat) (hk : k < (m.load font base n).length) :
    (m.load font base n)[k] = m.read font (base + k) := by
  induction n generalizing base k with
  | zero => simp [Memory.load] at hk
  | succ n ih =>
    cases k with
    | zero => simp [Memory.load]
    | succ k =>
      simp only [Memory.load, List.getElem_cons_succ]
      rw [ih (base + 1) k (by simpa [Memory.load] using hk)]
      congr 1
      omega

/-! ## The bounds check (20_memory R52, R53) -/

/-- An access passes the check exactly when every byte it accesses exists. -/
theorem outOfRange_eq_none_iff {base n : Nat} : outOfRange base n = none ↔ ∀ k, k < n → base + k < 4096 := by
  simp only [outOfRange, Config.memSize]
  constructor
  · intro h k hk
    split at h
    · omega
    · cases h
  · intro h
    rw [if_pos]
    rcases Nat.eq_zero_or_pos n with rfl | hn
    · exact .inl rfl
    · right
      have := h (n - 1) (by omega)
      omega

/-- An access that fails the check records the lowest accessed address at or above 4096. -/
theorem outOfRange_some {base n bad : Nat} (h : outOfRange base n = some bad) :
    4096 ≤ bad ∧ base ≤ bad ∧ bad < base + n ∧ ∀ k, k < n → 4096 ≤ base + k → bad ≤ base + k := by
  simp only [outOfRange, Config.memSize] at h
  split at h
  · cases h
  · cases h
    exact ⟨by omega, by omega, by omega, fun k _ _ => by omega⟩

end Sys2Proof.Machine
end

