-- ==== Sys2Proof/Laws/State.lean ====
section
/-!
SUPPORT. One lemma per field per update of the state, and one per accessor per update that does not concern it, so
that no proof unfolds a record update; then the laws of the registers, the keypad, the stack and the skips.
-/

namespace Sys2Proof.Machine

variable (s : State)

/-! ## setV -/

@[simp] theorem State.setV_font (x : Reg) (b : Byte) : (s.setV x b).font = s.font := rfl
@[simp] theorem State.setV_mem (x : Reg) (b : Byte) : (s.setV x b).mem = s.mem := rfl
@[simp] theorem State.setV_V (x : Reg) (b : Byte) : (s.setV x b).V = s.V.set x.val b := rfl
@[simp] theorem State.setV_I (x : Reg) (b : Byte) : (s.setV x b).I = s.I := rfl
@[simp] theorem State.setV_pc (x : Reg) (b : Byte) : (s.setV x b).pc = s.pc := rfl
@[simp] theorem State.setV_stack (x : Reg) (b : Byte) : (s.setV x b).stack = s.stack := rfl
@[simp] theorem State.setV_sp (x : Reg) (b : Byte) : (s.setV x b).sp = s.sp := rfl
@[simp] theorem State.setV_fb (x : Reg) (b : Byte) : (s.setV x b).fb = s.fb := rfl
@[simp] theorem State.setV_keys (x : Reg) (b : Byte) : (s.setV x b).keys = s.keys := rfl
@[simp] theorem State.setV_DT (x : Reg) (b : Byte) : (s.setV x b).DT = s.DT := rfl
@[simp] theorem State.setV_ST (x : Reg) (b : Byte) : (s.setV x b).ST = s.ST := rfl
@[simp] theorem State.setV_status (x : Reg) (b : Byte) : (s.setV x b).status = s.status := rfl
@[simp] theorem State.setV_soundReq (x : Reg) (b : Byte) : (s.setV x b).soundReq = s.soundReq := rfl
@[simp] theorem State.setV_draws (x : Reg) (b : Byte) : (s.setV x b).draws = s.draws := rfl
@[simp] theorem State.setV_inbox (x : Reg) (b : Byte) : (s.setV x b).inbox = s.inbox := rfl
@[simp] theorem State.setV_outputs (x : Reg) (b : Byte) : (s.setV x b).outputs = s.outputs := rfl
@[simp] theorem State.setV_getKey (x : Reg) (b : Byte) (j : Fin 16) : (s.setV x b).getKey j = s.getKey j := rfl
@[simp] theorem State.setV_byteAt (x : Reg) (b : Byte) (a' : Nat) : (s.setV x b).byteAt a' = s.byteAt a' := rfl
@[simp] theorem State.setV_pixel (x : Reg) (b : Byte) (px py : Nat) : (s.setV x b).pixel px py = s.pixel px py := rfl

/-! ## setI -/

@[simp] theorem State.setI_font (w : Word) : (s.setI w).font = s.font := rfl
@[simp] theorem State.setI_mem (w : Word) : (s.setI w).mem = s.mem := rfl
@[simp] theorem State.setI_V (w : Word) : (s.setI w).V = s.V := rfl
@[simp] theorem State.setI_I (w : Word) : (s.setI w).I = w := rfl
@[simp] theorem State.setI_pc (w : Word) : (s.setI w).pc = s.pc := rfl
@[simp] theorem State.setI_stack (w : Word) : (s.setI w).stack = s.stack := rfl
@[simp] theorem State.setI_sp (w : Word) : (s.setI w).sp = s.sp := rfl
@[simp] theorem State.setI_fb (w : Word) : (s.setI w).fb = s.fb := rfl
@[simp] theorem State.setI_keys (w : Word) : (s.setI w).keys = s.keys := rfl
@[simp] theorem State.setI_DT (w : Word) : (s.setI w).DT = s.DT := rfl
@[simp] theorem State.setI_ST (w : Word) : (s.setI w).ST = s.ST := rfl
@[simp] theorem State.setI_status (w : Word) : (s.setI w).status = s.status := rfl
@[simp] theorem State.setI_soundReq (w : Word) : (s.setI w).soundReq = s.soundReq := rfl
@[simp] theorem State.setI_draws (w : Word) : (s.setI w).draws = s.draws := rfl
@[simp] theorem State.setI_inbox (w : Word) : (s.setI w).inbox = s.inbox := rfl
@[simp] theorem State.setI_outputs (w : Word) : (s.setI w).outputs = s.outputs := rfl
@[simp] theorem State.setI_getV (w : Word) (r : Reg) : (s.setI w).getV r = s.getV r := rfl
@[simp] theorem State.setI_getKey (w : Word) (j : Fin 16) : (s.setI w).getKey j = s.getKey j := rfl
@[simp] theorem State.setI_byteAt (w : Word) (a' : Nat) : (s.setI w).byteAt a' = s.byteAt a' := rfl
@[simp] theorem State.setI_pixel (w : Word) (px py : Nat) : (s.setI w).pixel px py = s.pixel px py := rfl

/-! ## setPc -/

@[simp] theorem State.setPc_font (w : Word) : (s.setPc w).font = s.font := rfl
@[simp] theorem State.setPc_mem (w : Word) : (s.setPc w).mem = s.mem := rfl
@[simp] theorem State.setPc_V (w : Word) : (s.setPc w).V = s.V := rfl
@[simp] theorem State.setPc_I (w : Word) : (s.setPc w).I = s.I := rfl
@[simp] theorem State.setPc_pc (w : Word) : (s.setPc w).pc = w := rfl
@[simp] theorem State.setPc_stack (w : Word) : (s.setPc w).stack = s.stack := rfl
@[simp] theorem State.setPc_sp (w : Word) : (s.setPc w).sp = s.sp := rfl
@[simp] theorem State.setPc_fb (w : Word) : (s.setPc w).fb = s.fb := rfl
@[simp] theorem State.setPc_keys (w : Word) : (s.setPc w).keys = s.keys := rfl
@[simp] theorem State.setPc_DT (w : Word) : (s.setPc w).DT = s.DT := rfl
@[simp] theorem State.setPc_ST (w : Word) : (s.setPc w).ST = s.ST := rfl
@[simp] theorem State.setPc_status (w : Word) : (s.setPc w).status = s.status := rfl
@[simp] theorem State.setPc_soundReq (w : Word) : (s.setPc w).soundReq = s.soundReq := rfl
@[simp] theorem State.setPc_draws (w : Word) : (s.setPc w).draws = s.draws := rfl
@[simp] theorem State.setPc_inbox (w : Word) : (s.setPc w).inbox = s.inbox := rfl
@[simp] theorem State.setPc_outputs (w : Word) : (s.setPc w).outputs = s.outputs := rfl
@[simp] theorem State.setPc_getV (w : Word) (r : Reg) : (s.setPc w).getV r = s.getV r := rfl
@[simp] theorem State.setPc_getKey (w : Word) (j : Fin 16) : (s.setPc w).getKey j = s.getKey j := rfl
@[simp] theorem State.setPc_byteAt (w : Word) (a' : Nat) : (s.setPc w).byteAt a' = s.byteAt a' := rfl
@[simp] theorem State.setPc_pixel (w : Word) (px py : Nat) : (s.setPc w).pixel px py = s.pixel px py := rfl

/-! ## setDT -/

@[simp] theorem State.setDT_font (b : Byte) : (s.setDT b).font = s.font := rfl
@[simp] theorem State.setDT_mem (b : Byte) : (s.setDT b).mem = s.mem := rfl
@[simp] theorem State.setDT_V (b : Byte) : (s.setDT b).V = s.V := rfl
@[simp] theorem State.setDT_I (b : Byte) : (s.setDT b).I = s.I := rfl
@[simp] theorem State.setDT_pc (b : Byte) : (s.setDT b).pc = s.pc := rfl
@[simp] theorem State.setDT_stack (b : Byte) : (s.setDT b).stack = s.stack := rfl
@[simp] theorem State.setDT_sp (b : Byte) : (s.setDT b).sp = s.sp := rfl
@[simp] theorem State.setDT_fb (b : Byte) : (s.setDT b).fb = s.fb := rfl
@[simp] theorem State.setDT_keys (b : Byte) : (s.setDT b).keys = s.keys := rfl
@[simp] theorem State.setDT_DT (b : Byte) : (s.setDT b).DT = b := rfl
@[simp] theorem State.setDT_ST (b : Byte) : (s.setDT b).ST = s.ST := rfl
@[simp] theorem State.setDT_status (b : Byte) : (s.setDT b).status = s.status := rfl
@[simp] theorem State.setDT_soundReq (b : Byte) : (s.setDT b).soundReq = s.soundReq := rfl
@[simp] theorem State.setDT_draws (b : Byte) : (s.setDT b).draws = s.draws := rfl
@[simp] theorem State.setDT_inbox (b : Byte) : (s.setDT b).inbox = s.inbox := rfl
@[simp] theorem State.setDT_outputs (b : Byte) : (s.setDT b).outputs = s.outputs := rfl
@[simp] theorem State.setDT_getV (b : Byte) (r : Reg) : (s.setDT b).getV r = s.getV r := rfl
@[simp] theorem State.setDT_getKey (b : Byte) (j : Fin 16) : (s.setDT b).getKey j = s.getKey j := rfl
@[simp] theorem State.setDT_byteAt (b : Byte) (a' : Nat) : (s.setDT b).byteAt a' = s.byteAt a' := rfl
@[simp] theorem State.setDT_pixel (b : Byte) (px py : Nat) : (s.setDT b).pixel px py = s.pixel px py := rfl

/-! ## setST -/

@[simp] theorem State.setST_font (b : Byte) : (s.setST b).font = s.font := rfl
@[simp] theorem State.setST_mem (b : Byte) : (s.setST b).mem = s.mem := rfl
@[simp] theorem State.setST_V (b : Byte) : (s.setST b).V = s.V := rfl
@[simp] theorem State.setST_I (b : Byte) : (s.setST b).I = s.I := rfl
@[simp] theorem State.setST_pc (b : Byte) : (s.setST b).pc = s.pc := rfl
@[simp] theorem State.setST_stack (b : Byte) : (s.setST b).stack = s.stack := rfl
@[simp] theorem State.setST_sp (b : Byte) : (s.setST b).sp = s.sp := rfl
@[simp] theorem State.setST_fb (b : Byte) : (s.setST b).fb = s.fb := rfl
@[simp] theorem State.setST_keys (b : Byte) : (s.setST b).keys = s.keys := rfl
@[simp] theorem State.setST_DT (b : Byte) : (s.setST b).DT = s.DT := rfl
@[simp] theorem State.setST_ST (b : Byte) : (s.setST b).ST = b := rfl
@[simp] theorem State.setST_status (b : Byte) : (s.setST b).status = s.status := rfl
@[simp] theorem State.setST_soundReq (b : Byte) : (s.setST b).soundReq = s.soundReq := rfl
@[simp] theorem State.setST_draws (b : Byte) : (s.setST b).draws = s.draws := rfl
@[simp] theorem State.setST_inbox (b : Byte) : (s.setST b).inbox = s.inbox := rfl
@[simp] theorem State.setST_outputs (b : Byte) : (s.setST b).outputs = s.outputs := rfl
@[simp] theorem State.setST_getV (b : Byte) (r : Reg) : (s.setST b).getV r = s.getV r := rfl
@[simp] theorem State.setST_getKey (b : Byte) (j : Fin 16) : (s.setST b).getKey j = s.getKey j := rfl
@[simp] theorem State.setST_byteAt (b : Byte) (a' : Nat) : (s.setST b).byteAt a' = s.byteAt a' := rfl
@[simp] theorem State.setST_pixel (b : Byte) (px py : Nat) : (s.setST b).pixel px py = s.pixel px py := rfl

/-! ## setMem -/

@[simp] theorem State.setMem_font (m : Memory) : (s.setMem m).font = s.font := rfl
@[simp] theorem State.setMem_mem (m : Memory) : (s.setMem m).mem = m := rfl
@[simp] theorem State.setMem_V (m : Memory) : (s.setMem m).V = s.V := rfl
@[simp] theorem State.setMem_I (m : Memory) : (s.setMem m).I = s.I := rfl
@[simp] theorem State.setMem_pc (m : Memory) : (s.setMem m).pc = s.pc := rfl
@[simp] theorem State.setMem_stack (m : Memory) : (s.setMem m).stack = s.stack := rfl
@[simp] theorem State.setMem_sp (m : Memory) : (s.setMem m).sp = s.sp := rfl
@[simp] theorem State.setMem_fb (m : Memory) : (s.setMem m).fb = s.fb := rfl
@[simp] theorem State.setMem_keys (m : Memory) : (s.setMem m).keys = s.keys := rfl
@[simp] theorem State.setMem_DT (m : Memory) : (s.setMem m).DT = s.DT := rfl
@[simp] theorem State.setMem_ST (m : Memory) : (s.setMem m).ST = s.ST := rfl
@[simp] theorem State.setMem_status (m : Memory) : (s.setMem m).status = s.status := rfl
@[simp] theorem State.setMem_soundReq (m : Memory) : (s.setMem m).soundReq = s.soundReq := rfl
@[simp] theorem State.setMem_draws (m : Memory) : (s.setMem m).draws = s.draws := rfl
@[simp] theorem State.setMem_inbox (m : Memory) : (s.setMem m).inbox = s.inbox := rfl
@[simp] theorem State.setMem_outputs (m : Memory) : (s.setMem m).outputs = s.outputs := rfl
@[simp] theorem State.setMem_getV (m : Memory) (r : Reg) : (s.setMem m).getV r = s.getV r := rfl
@[simp] theorem State.setMem_getKey (m : Memory) (j : Fin 16) : (s.setMem m).getKey j = s.getKey j := rfl
@[simp] theorem State.setMem_pixel (m : Memory) (px py : Nat) : (s.setMem m).pixel px py = s.pixel px py := rfl

/-! ## storeBytes -/

@[simp] theorem State.storeBytes_font (base : Nat) (bs : List Byte) : (s.storeBytes base bs).font = s.font := rfl
@[simp] theorem State.storeBytes_mem (base : Nat) (bs : List Byte) : (s.storeBytes base bs).mem = s.mem.store s.font base bs := rfl
@[simp] theorem State.storeBytes_V (base : Nat) (bs : List Byte) : (s.storeBytes base bs).V = s.V := rfl
@[simp] theorem State.storeBytes_I (base : Nat) (bs : List Byte) : (s.storeBytes base bs).I = s.I := rfl
@[simp] theorem State.storeBytes_pc (base : Nat) (bs : List Byte) : (s.storeBytes base bs).pc = s.pc := rfl
@[simp] theorem State.storeBytes_stack (base : Nat) (bs : List Byte) : (s.storeBytes base bs).stack = s.stack := rfl
@[simp] theorem State.storeBytes_sp (base : Nat) (bs : List Byte) : (s.storeBytes base bs).sp = s.sp := rfl
@[simp] theorem State.storeBytes_fb (base : Nat) (bs : List Byte) : (s.storeBytes base bs).fb = s.fb := rfl
@[simp] theorem State.storeBytes_keys (base : Nat) (bs : List Byte) : (s.storeBytes base bs).keys = s.keys := rfl
@[simp] theorem State.storeBytes_DT (base : Nat) (bs : List Byte) : (s.storeBytes base bs).DT = s.DT := rfl
@[simp] theorem State.storeBytes_ST (base : Nat) (bs : List Byte) : (s.storeBytes base bs).ST = s.ST := rfl
@[simp] theorem State.storeBytes_status (base : Nat) (bs : List Byte) : (s.storeBytes base bs).status = s.status := rfl
@[simp] theorem State.storeBytes_soundReq (base : Nat) (bs : List Byte) : (s.storeBytes base bs).soundReq = s.soundReq := rfl
@[simp] theorem State.storeBytes_draws (base : Nat) (bs : List Byte) : (s.storeBytes base bs).draws = s.draws := rfl
@[simp] theorem State.storeBytes_inbox (base : Nat) (bs : List Byte) : (s.storeBytes base bs).inbox = s.inbox := rfl
@[simp] theorem State.storeBytes_outputs (base : Nat) (bs : List Byte) : (s.storeBytes base bs).outputs = s.outputs := rfl
@[simp] theorem State.storeBytes_getV (base : Nat) (bs : List Byte) (r : Reg) : (s.storeBytes base bs).getV r = s.getV r := rfl
@[simp] theorem State.storeBytes_getKey (base : Nat) (bs : List Byte) (j : Fin 16) : (s.storeBytes base bs).getKey j = s.getKey j := rfl
@[simp] theorem State.storeBytes_pixel (base : Nat) (bs : List Byte) (px py : Nat) : (s.storeBytes base bs).pixel px py = s.pixel px py := rfl

/-! ## setFb -/

@[simp] theorem State.setFb_font (f : Frame) : (s.setFb f).font = s.font := rfl
@[simp] theorem State.setFb_mem (f : Frame) : (s.setFb f).mem = s.mem := rfl
@[simp] theorem State.setFb_V (f : Frame) : (s.setFb f).V = s.V := rfl
@[simp] theorem State.setFb_I (f : Frame) : (s.setFb f).I = s.I := rfl
@[simp] theorem State.setFb_pc (f : Frame) : (s.setFb f).pc = s.pc := rfl
@[simp] theorem State.setFb_stack (f : Frame) : (s.setFb f).stack = s.stack := rfl
@[simp] theorem State.setFb_sp (f : Frame) : (s.setFb f).sp = s.sp := rfl
@[simp] theorem State.setFb_fb (f : Frame) : (s.setFb f).fb = f := rfl
@[simp] theorem State.setFb_keys (f : Frame) : (s.setFb f).keys = s.keys := rfl
@[simp] theorem State.setFb_DT (f : Frame) : (s.setFb f).DT = s.DT := rfl
@[simp] theorem State.setFb_ST (f : Frame) : (s.setFb f).ST = s.ST := rfl
@[simp] theorem State.setFb_status (f : Frame) : (s.setFb f).status = s.status := rfl
@[simp] theorem State.setFb_soundReq (f : Frame) : (s.setFb f).soundReq = s.soundReq := rfl
@[simp] theorem State.setFb_draws (f : Frame) : (s.setFb f).draws = s.draws := rfl
@[simp] theorem State.setFb_inbox (f : Frame) : (s.setFb f).inbox = s.inbox := rfl
@[simp] theorem State.setFb_outputs (f : Frame) : (s.setFb f).outputs = s.outputs := rfl
@[simp] theorem State.setFb_getV (f : Frame) (r : Reg) : (s.setFb f).getV r = s.getV r := rfl
@[simp] theorem State.setFb_getKey (f : Frame) (j : Fin 16) : (s.setFb f).getKey j = s.getKey j := rfl
@[simp] theorem State.setFb_byteAt (f : Frame) (a' : Nat) : (s.setFb f).byteAt a' = s.byteAt a' := rfl

/-! ## setSoundReq -/

@[simp] theorem State.setSoundReq_font (b : Bool) : (s.setSoundReq b).font = s.font := rfl
@[simp] theorem State.setSoundReq_mem (b : Bool) : (s.setSoundReq b).mem = s.mem := rfl
@[simp] theorem State.setSoundReq_V (b : Bool) : (s.setSoundReq b).V = s.V := rfl
@[simp] theorem State.setSoundReq_I (b : Bool) : (s.setSoundReq b).I = s.I := rfl
@[simp] theorem State.setSoundReq_pc (b : Bool) : (s.setSoundReq b).pc = s.pc := rfl
@[simp] theorem State.setSoundReq_stack (b : Bool) : (s.setSoundReq b).stack = s.stack := rfl
@[simp] theorem State.setSoundReq_sp (b : Bool) : (s.setSoundReq b).sp = s.sp := rfl
@[simp] theorem State.setSoundReq_fb (b : Bool) : (s.setSoundReq b).fb = s.fb := rfl
@[simp] theorem State.setSoundReq_keys (b : Bool) : (s.setSoundReq b).keys = s.keys := rfl
@[simp] theorem State.setSoundReq_DT (b : Bool) : (s.setSoundReq b).DT = s.DT := rfl
@[simp] theorem State.setSoundReq_ST (b : Bool) : (s.setSoundReq b).ST = s.ST := rfl
@[simp] theorem State.setSoundReq_status (b : Bool) : (s.setSoundReq b).status = s.status := rfl
@[simp] theorem State.setSoundReq_soundReq (b : Bool) : (s.setSoundReq b).soundReq = b := rfl
@[simp] theorem State.setSoundReq_draws (b : Bool) : (s.setSoundReq b).draws = s.draws := rfl
@[simp] theorem State.setSoundReq_inbox (b : Bool) : (s.setSoundReq b).inbox = s.inbox := rfl
@[simp] theorem State.setSoundReq_outputs (b : Bool) : (s.setSoundReq b).outputs = s.outputs := rfl
@[simp] theorem State.setSoundReq_getV (b : Bool) (r : Reg) : (s.setSoundReq b).getV r = s.getV r := rfl
@[simp] theorem State.setSoundReq_getKey (b : Bool) (j : Fin 16) : (s.setSoundReq b).getKey j = s.getKey j := rfl
@[simp] theorem State.setSoundReq_byteAt (b : Bool) (a' : Nat) : (s.setSoundReq b).byteAt a' = s.byteAt a' := rfl
@[simp] theorem State.setSoundReq_pixel (b : Bool) (px py : Nat) : (s.setSoundReq b).pixel px py = s.pixel px py := rfl

/-! ## setStatus -/

@[simp] theorem State.setStatus_font (st : Status) : (s.setStatus st).font = s.font := rfl
@[simp] theorem State.setStatus_mem (st : Status) : (s.setStatus st).mem = s.mem := rfl
@[simp] theorem State.setStatus_V (st : Status) : (s.setStatus st).V = s.V := rfl
@[simp] theorem State.setStatus_I (st : Status) : (s.setStatus st).I = s.I := rfl
@[simp] theorem State.setStatus_pc (st : Status) : (s.setStatus st).pc = s.pc := rfl
@[simp] theorem State.setStatus_stack (st : Status) : (s.setStatus st).stack = s.stack := rfl
@[simp] theorem State.setStatus_sp (st : Status) : (s.setStatus st).sp = s.sp := rfl
@[simp] theorem State.setStatus_fb (st : Status) : (s.setStatus st).fb = s.fb := rfl
@[simp] theorem State.setStatus_keys (st : Status) : (s.setStatus st).keys = s.keys := rfl
@[simp] theorem State.setStatus_DT (st : Status) : (s.setStatus st).DT = s.DT := rfl
@[simp] theorem State.setStatus_ST (st : Status) : (s.setStatus st).ST = s.ST := rfl
@[simp] theorem State.setStatus_status (st : Status) : (s.setStatus st).status = st := rfl
@[simp] theorem State.setStatus_soundReq (st : Status) : (s.setStatus st).soundReq = s.soundReq := rfl
@[simp] theorem State.setStatus_draws (st : Status) : (s.setStatus st).draws = s.draws := rfl
@[simp] theorem State.setStatus_inbox (st : Status) : (s.setStatus st).inbox = s.inbox := rfl
@[simp] theorem State.setStatus_outputs (st : Status) : (s.setStatus st).outputs = s.outputs := rfl
@[simp] theorem State.setStatus_getV (st : Status) (r : Reg) : (s.setStatus st).getV r = s.getV r := rfl
@[simp] theorem State.setStatus_getKey (st : Status) (j : Fin 16) : (s.setStatus st).getKey j = s.getKey j := rfl
@[simp] theorem State.setStatus_byteAt (st : Status) (a' : Nat) : (s.setStatus st).byteAt a' = s.byteAt a' := rfl
@[simp] theorem State.setStatus_pixel (st : Status) (px py : Nat) : (s.setStatus st).pixel px py = s.pixel px py := rfl

/-! ## setInbox -/

@[simp] theorem State.setInbox_font (ops : List PortOp) : (s.setInbox ops).font = s.font := rfl
@[simp] theorem State.setInbox_mem (ops : List PortOp) : (s.setInbox ops).mem = s.mem := rfl
@[simp] theorem State.setInbox_V (ops : List PortOp) : (s.setInbox ops).V = s.V := rfl
@[simp] theorem State.setInbox_I (ops : List PortOp) : (s.setInbox ops).I = s.I := rfl
@[simp] theorem State.setInbox_pc (ops : List PortOp) : (s.setInbox ops).pc = s.pc := rfl
@[simp] theorem State.setInbox_stack (ops : List PortOp) : (s.setInbox ops).stack = s.stack := rfl
@[simp] theorem State.setInbox_sp (ops : List PortOp) : (s.setInbox ops).sp = s.sp := rfl
@[simp] theorem State.setInbox_fb (ops : List PortOp) : (s.setInbox ops).fb = s.fb := rfl
@[simp] theorem State.setInbox_keys (ops : List PortOp) : (s.setInbox ops).keys = s.keys := rfl
@[simp] theorem State.setInbox_DT (ops : List PortOp) : (s.setInbox ops).DT = s.DT := rfl
@[simp] theorem State.setInbox_ST (ops : List PortOp) : (s.setInbox ops).ST = s.ST := rfl
@[simp] theorem State.setInbox_status (ops : List PortOp) : (s.setInbox ops).status = s.status := rfl
@[simp] theorem State.setInbox_soundReq (ops : List PortOp) : (s.setInbox ops).soundReq = s.soundReq := rfl
@[simp] theorem State.setInbox_draws (ops : List PortOp) : (s.setInbox ops).draws = s.draws := rfl
@[simp] theorem State.setInbox_inbox (ops : List PortOp) : (s.setInbox ops).inbox = ops := rfl
@[simp] theorem State.setInbox_outputs (ops : List PortOp) : (s.setInbox ops).outputs = s.outputs := rfl
@[simp] theorem State.setInbox_getV (ops : List PortOp) (r : Reg) : (s.setInbox ops).getV r = s.getV r := rfl
@[simp] theorem State.setInbox_getKey (ops : List PortOp) (j : Fin 16) : (s.setInbox ops).getKey j = s.getKey j := rfl
@[simp] theorem State.setInbox_byteAt (ops : List PortOp) (a' : Nat) : (s.setInbox ops).byteAt a' = s.byteAt a' := rfl
@[simp] theorem State.setInbox_pixel (ops : List PortOp) (px py : Nat) : (s.setInbox ops).pixel px py = s.pixel px py := rfl

/-! ## emit -/

@[simp] theorem State.emit_font (o : PortOutput) : (s.emit o).font = s.font := rfl
@[simp] theorem State.emit_mem (o : PortOutput) : (s.emit o).mem = s.mem := rfl
@[simp] theorem State.emit_V (o : PortOutput) : (s.emit o).V = s.V := rfl
@[simp] theorem State.emit_I (o : PortOutput) : (s.emit o).I = s.I := rfl
@[simp] theorem State.emit_pc (o : PortOutput) : (s.emit o).pc = s.pc := rfl
@[simp] theorem State.emit_stack (o : PortOutput) : (s.emit o).stack = s.stack := rfl
@[simp] theorem State.emit_sp (o : PortOutput) : (s.emit o).sp = s.sp := rfl
@[simp] theorem State.emit_fb (o : PortOutput) : (s.emit o).fb = s.fb := rfl
@[simp] theorem State.emit_keys (o : PortOutput) : (s.emit o).keys = s.keys := rfl
@[simp] theorem State.emit_DT (o : PortOutput) : (s.emit o).DT = s.DT := rfl
@[simp] theorem State.emit_ST (o : PortOutput) : (s.emit o).ST = s.ST := rfl
@[simp] theorem State.emit_status (o : PortOutput) : (s.emit o).status = s.status := rfl
@[simp] theorem State.emit_soundReq (o : PortOutput) : (s.emit o).soundReq = s.soundReq := rfl
@[simp] theorem State.emit_draws (o : PortOutput) : (s.emit o).draws = s.draws := rfl
@[simp] theorem State.emit_inbox (o : PortOutput) : (s.emit o).inbox = s.inbox := rfl
@[simp] theorem State.emit_outputs (o : PortOutput) : (s.emit o).outputs = o :: s.outputs := rfl
@[simp] theorem State.emit_getV (o : PortOutput) (r : Reg) : (s.emit o).getV r = s.getV r := rfl
@[simp] theorem State.emit_getKey (o : PortOutput) (j : Fin 16) : (s.emit o).getKey j = s.getKey j := rfl
@[simp] theorem State.emit_byteAt (o : PortOutput) (a' : Nat) : (s.emit o).byteAt a' = s.byteAt a' := rfl
@[simp] theorem State.emit_pixel (o : PortOutput) (px py : Nat) : (s.emit o).pixel px py = s.pixel px py := rfl

/-! ## countDraw -/

@[simp] theorem State.countDraw_font : s.countDraw.font = s.font := rfl
@[simp] theorem State.countDraw_mem : s.countDraw.mem = s.mem := rfl
@[simp] theorem State.countDraw_V : s.countDraw.V = s.V := rfl
@[simp] theorem State.countDraw_I : s.countDraw.I = s.I := rfl
@[simp] theorem State.countDraw_pc : s.countDraw.pc = s.pc := rfl
@[simp] theorem State.countDraw_stack : s.countDraw.stack = s.stack := rfl
@[simp] theorem State.countDraw_sp : s.countDraw.sp = s.sp := rfl
@[simp] theorem State.countDraw_fb : s.countDraw.fb = s.fb := rfl
@[simp] theorem State.countDraw_keys : s.countDraw.keys = s.keys := rfl
@[simp] theorem State.countDraw_DT : s.countDraw.DT = s.DT := rfl
@[simp] theorem State.countDraw_ST : s.countDraw.ST = s.ST := rfl
@[simp] theorem State.countDraw_status : s.countDraw.status = s.status := rfl
@[simp] theorem State.countDraw_soundReq : s.countDraw.soundReq = s.soundReq := rfl
@[simp] theorem State.countDraw_draws : s.countDraw.draws = s.draws + 1 := rfl
@[simp] theorem State.countDraw_inbox : s.countDraw.inbox = s.inbox := rfl
@[simp] theorem State.countDraw_outputs : s.countDraw.outputs = s.outputs := rfl
@[simp] theorem State.countDraw_getV  (r : Reg) : s.countDraw.getV r = s.getV r := rfl
@[simp] theorem State.countDraw_getKey  (j : Fin 16) : s.countDraw.getKey j = s.getKey j := rfl
@[simp] theorem State.countDraw_byteAt  (a' : Nat) : s.countDraw.byteAt a' = s.byteAt a' := rfl
@[simp] theorem State.countDraw_pixel  (px py : Nat) : s.countDraw.pixel px py = s.pixel px py := rfl

/-! ## setKey -/

@[simp] theorem State.setKey_font (k : Fin 16) (b : Bool) : (s.setKey k b).font = s.font := rfl
@[simp] theorem State.setKey_mem (k : Fin 16) (b : Bool) : (s.setKey k b).mem = s.mem := rfl
@[simp] theorem State.setKey_V (k : Fin 16) (b : Bool) : (s.setKey k b).V = s.V := rfl
@[simp] theorem State.setKey_I (k : Fin 16) (b : Bool) : (s.setKey k b).I = s.I := rfl
@[simp] theorem State.setKey_pc (k : Fin 16) (b : Bool) : (s.setKey k b).pc = s.pc := rfl
@[simp] theorem State.setKey_stack (k : Fin 16) (b : Bool) : (s.setKey k b).stack = s.stack := rfl
@[simp] theorem State.setKey_sp (k : Fin 16) (b : Bool) : (s.setKey k b).sp = s.sp := rfl
@[simp] theorem State.setKey_fb (k : Fin 16) (b : Bool) : (s.setKey k b).fb = s.fb := rfl
@[simp] theorem State.setKey_keys (k : Fin 16) (b : Bool) : (s.setKey k b).keys = s.keys.set k.val b := rfl
@[simp] theorem State.setKey_DT (k : Fin 16) (b : Bool) : (s.setKey k b).DT = s.DT := rfl
@[simp] theorem State.setKey_ST (k : Fin 16) (b : Bool) : (s.setKey k b).ST = s.ST := rfl
@[simp] theorem State.setKey_status (k : Fin 16) (b : Bool) : (s.setKey k b).status = s.status := rfl
@[simp] theorem State.setKey_soundReq (k : Fin 16) (b : Bool) : (s.setKey k b).soundReq = s.soundReq := rfl
@[simp] theorem State.setKey_draws (k : Fin 16) (b : Bool) : (s.setKey k b).draws = s.draws := rfl
@[simp] theorem State.setKey_inbox (k : Fin 16) (b : Bool) : (s.setKey k b).inbox = s.inbox := rfl
@[simp] theorem State.setKey_outputs (k : Fin 16) (b : Bool) : (s.setKey k b).outputs = s.outputs := rfl
@[simp] theorem State.setKey_getV (k : Fin 16) (b : Bool) (r : Reg) : (s.setKey k b).getV r = s.getV r := rfl
@[simp] theorem State.setKey_byteAt (k : Fin 16) (b : Bool) (a' : Nat) : (s.setKey k b).byteAt a' = s.byteAt a' := rfl
@[simp] theorem State.setKey_pixel (k : Fin 16) (b : Bool) (px py : Nat) : (s.setKey k b).pixel px py = s.pixel px py := rfl

/-! ## halt -/

@[simp] theorem State.halt_font (kind : FaultKind) (pc : Word) (op : Option Word) (a : Option Nat) : (s.halt kind pc op a).font = s.font := rfl
@[simp] theorem State.halt_mem (kind : FaultKind) (pc : Word) (op : Option Word) (a : Option Nat) : (s.halt kind pc op a).mem = s.mem := rfl
@[simp] theorem State.halt_V (kind : FaultKind) (pc : Word) (op : Option Word) (a : Option Nat) : (s.halt kind pc op a).V = s.V := rfl
@[simp] theorem State.halt_I (kind : FaultKind) (pc : Word) (op : Option Word) (a : Option Nat) : (s.halt kind pc op a).I = s.I := rfl
@[simp] theorem State.halt_pc (kind : FaultKind) (pc : Word) (op : Option Word) (a : Option Nat) : (s.halt kind pc op a).pc = s.pc := rfl
@[simp] theorem State.halt_stack (kind : FaultKind) (pc : Word) (op : Option Word) (a : Option Nat) : (s.halt kind pc op a).stack = s.stack := rfl
@[simp] theorem State.halt_sp (kind : FaultKind) (pc : Word) (op : Option Word) (a : Option Nat) : (s.halt kind pc op a).sp = s.sp := rfl
@[simp] theorem State.halt_fb (kind : FaultKind) (pc : Word) (op : Option Word) (a : Option Nat) : (s.halt kind pc op a).fb = s.fb := rfl
@[simp] theorem State.halt_keys (kind : FaultKind) (pc : Word) (op : Option Word) (a : Option Nat) : (s.halt kind pc op a).keys = s.keys := rfl
@[simp] theorem State.halt_DT (kind : FaultKind) (pc : Word) (op : Option Word) (a : Option Nat) : (s.halt kind pc op a).DT = s.DT := rfl
@[simp] theorem State.halt_ST (kind : FaultKind) (pc : Word) (op : Option Word) (a : Option Nat) : (s.halt kind pc op a).ST = s.ST := rfl
@[simp] theorem State.halt_status (kind : FaultKind) (pc : Word) (op : Option Word) (a : Option Nat) : (s.halt kind pc op a).status = .halted ⟨kind.code, kind, pc, op, a⟩ := rfl
@[simp] theorem State.halt_soundReq (kind : FaultKind) (pc : Word) (op : Option Word) (a : Option Nat) : (s.halt kind pc op a).soundReq = s.soundReq := rfl
@[simp] theorem State.halt_draws (kind : FaultKind) (pc : Word) (op : Option Word) (a : Option Nat) : (s.halt kind pc op a).draws = s.draws := rfl
@[simp] theorem State.halt_inbox (kind : FaultKind) (pc : Word) (op : Option Word) (a : Option Nat) : (s.halt kind pc op a).inbox = s.inbox := rfl
@[simp] theorem State.halt_outputs (kind : FaultKind) (pc : Word) (op : Option Word) (a : Option Nat) : (s.halt kind pc op a).outputs = s.outputs := rfl
@[simp] theorem State.halt_getV (kind : FaultKind) (pc : Word) (op : Option Word) (a : Option Nat) (r : Reg) : (s.halt kind pc op a).getV r = s.getV r := rfl
@[simp] theorem State.halt_getKey (kind : FaultKind) (pc : Word) (op : Option Word) (a : Option Nat) (j : Fin 16) : (s.halt kind pc op a).getKey j = s.getKey j := rfl
@[simp] theorem State.halt_byteAt (kind : FaultKind) (pc : Word) (op : Option Word) (a : Option Nat) (a' : Nat) : (s.halt kind pc op a).byteAt a' = s.byteAt a' := rfl
@[simp] theorem State.halt_pixel (kind : FaultKind) (pc : Word) (op : Option Word) (a : Option Nat) (px py : Nat) : (s.halt kind pc op a).pixel px py = s.pixel px py := rfl

/-! ## faultOf -/

@[simp] theorem State.faultOf_font (i : Instr) (kind : FaultKind) (a : Option Nat) : (s.faultOf i kind a).font = s.font := rfl
@[simp] theorem State.faultOf_mem (i : Instr) (kind : FaultKind) (a : Option Nat) : (s.faultOf i kind a).mem = s.mem := rfl
@[simp] theorem State.faultOf_V (i : Instr) (kind : FaultKind) (a : Option Nat) : (s.faultOf i kind a).V = s.V := rfl
@[simp] theorem State.faultOf_I (i : Instr) (kind : FaultKind) (a : Option Nat) : (s.faultOf i kind a).I = s.I := rfl
@[simp] theorem State.faultOf_pc (i : Instr) (kind : FaultKind) (a : Option Nat) : (s.faultOf i kind a).pc = s.pc := rfl
@[simp] theorem State.faultOf_stack (i : Instr) (kind : FaultKind) (a : Option Nat) : (s.faultOf i kind a).stack = s.stack := rfl
@[simp] theorem State.faultOf_sp (i : Instr) (kind : FaultKind) (a : Option Nat) : (s.faultOf i kind a).sp = s.sp := rfl
@[simp] theorem State.faultOf_fb (i : Instr) (kind : FaultKind) (a : Option Nat) : (s.faultOf i kind a).fb = s.fb := rfl
@[simp] theorem State.faultOf_keys (i : Instr) (kind : FaultKind) (a : Option Nat) : (s.faultOf i kind a).keys = s.keys := rfl
@[simp] theorem State.faultOf_DT (i : Instr) (kind : FaultKind) (a : Option Nat) : (s.faultOf i kind a).DT = s.DT := rfl
@[simp] theorem State.faultOf_ST (i : Instr) (kind : FaultKind) (a : Option Nat) : (s.faultOf i kind a).ST = s.ST := rfl
@[simp] theorem State.faultOf_status (i : Instr) (kind : FaultKind) (a : Option Nat) : (s.faultOf i kind a).status = .halted ⟨kind.code, kind, s.instrAddr, some (encode i), a⟩ := rfl
@[simp] theorem State.faultOf_soundReq (i : Instr) (kind : FaultKind) (a : Option Nat) : (s.faultOf i kind a).soundReq = s.soundReq := rfl
@[simp] theorem State.faultOf_draws (i : Instr) (kind : FaultKind) (a : Option Nat) : (s.faultOf i kind a).draws = s.draws := rfl
@[simp] theorem State.faultOf_inbox (i : Instr) (kind : FaultKind) (a : Option Nat) : (s.faultOf i kind a).inbox = s.inbox := rfl
@[simp] theorem State.faultOf_outputs (i : Instr) (kind : FaultKind) (a : Option Nat) : (s.faultOf i kind a).outputs = s.outputs := rfl
@[simp] theorem State.faultOf_getV (i : Instr) (kind : FaultKind) (a : Option Nat) (r : Reg) : (s.faultOf i kind a).getV r = s.getV r := rfl
@[simp] theorem State.faultOf_getKey (i : Instr) (kind : FaultKind) (a : Option Nat) (j : Fin 16) : (s.faultOf i kind a).getKey j = s.getKey j := rfl
@[simp] theorem State.faultOf_byteAt (i : Instr) (kind : FaultKind) (a : Option Nat) (a' : Nat) : (s.faultOf i kind a).byteAt a' = s.byteAt a' := rfl
@[simp] theorem State.faultOf_pixel (i : Instr) (kind : FaultKind) (a : Option Nat) (px py : Nat) : (s.faultOf i kind a).pixel px py = s.pixel px py := rfl

/-! ## loadRegsUpTo -/

@[simp] theorem State.loadRegsUpTo_font (x : Reg) : (s.loadRegsUpTo x).font = s.font := rfl
@[simp] theorem State.loadRegsUpTo_mem (x : Reg) : (s.loadRegsUpTo x).mem = s.mem := rfl
@[simp] theorem State.loadRegsUpTo_V (x : Reg) : (s.loadRegsUpTo x).V = Vector.ofFn fun k : Fin 16 => if k ≤ x then s.byteAt (s.eaI k.val) else s.V.get k := rfl
@[simp] theorem State.loadRegsUpTo_I (x : Reg) : (s.loadRegsUpTo x).I = s.I := rfl
@[simp] theorem State.loadRegsUpTo_pc (x : Reg) : (s.loadRegsUpTo x).pc = s.pc := rfl
@[simp] theorem State.loadRegsUpTo_stack (x : Reg) : (s.loadRegsUpTo x).stack = s.stack := rfl
@[simp] theorem State.loadRegsUpTo_sp (x : Reg) : (s.loadRegsUpTo x).sp = s.sp := rfl
@[simp] theorem State.loadRegsUpTo_fb (x : Reg) : (s.loadRegsUpTo x).fb = s.fb := rfl
@[simp] theorem State.loadRegsUpTo_keys (x : Reg) : (s.loadRegsUpTo x).keys = s.keys := rfl
@[simp] theorem State.loadRegsUpTo_DT (x : Reg) : (s.loadRegsUpTo x).DT = s.DT := rfl
@[simp] theorem State.loadRegsUpTo_ST (x : Reg) : (s.loadRegsUpTo x).ST = s.ST := rfl
@[simp] theorem State.loadRegsUpTo_status (x : Reg) : (s.loadRegsUpTo x).status = s.status := rfl
@[simp] theorem State.loadRegsUpTo_soundReq (x : Reg) : (s.loadRegsUpTo x).soundReq = s.soundReq := rfl
@[simp] theorem State.loadRegsUpTo_draws (x : Reg) : (s.loadRegsUpTo x).draws = s.draws := rfl
@[simp] theorem State.loadRegsUpTo_inbox (x : Reg) : (s.loadRegsUpTo x).inbox = s.inbox := rfl
@[simp] theorem State.loadRegsUpTo_outputs (x : Reg) : (s.loadRegsUpTo x).outputs = s.outputs := rfl
@[simp] theorem State.loadRegsUpTo_getKey (x : Reg) (j : Fin 16) : (s.loadRegsUpTo x).getKey j = s.getKey j := rfl
@[simp] theorem State.loadRegsUpTo_byteAt (x : Reg) (a' : Nat) : (s.loadRegsUpTo x).byteAt a' = s.byteAt a' := rfl
@[simp] theorem State.loadRegsUpTo_pixel (x : Reg) (px py : Nat) : (s.loadRegsUpTo x).pixel px py = s.pixel px py := rfl

/-! ## advance -/

@[simp] theorem State.advance_font : s.advance.font = s.font := rfl
@[simp] theorem State.advance_mem : s.advance.mem = s.mem := rfl
@[simp] theorem State.advance_V : s.advance.V = s.V := rfl
@[simp] theorem State.advance_I : s.advance.I = s.I := rfl
@[simp] theorem State.advance_pc : s.advance.pc = s.pc + 2 := rfl
@[simp] theorem State.advance_stack : s.advance.stack = s.stack := rfl
@[simp] theorem State.advance_sp : s.advance.sp = s.sp := rfl
@[simp] theorem State.advance_fb : s.advance.fb = s.fb := rfl
@[simp] theorem State.advance_keys : s.advance.keys = s.keys := rfl
@[simp] theorem State.advance_DT : s.advance.DT = s.DT := rfl
@[simp] theorem State.advance_ST : s.advance.ST = s.ST := rfl
@[simp] theorem State.advance_status : s.advance.status = s.status := rfl
@[simp] theorem State.advance_soundReq : s.advance.soundReq = s.soundReq := rfl
@[simp] theorem State.advance_draws : s.advance.draws = s.draws := rfl
@[simp] theorem State.advance_inbox : s.advance.inbox = s.inbox := rfl
@[simp] theorem State.advance_outputs : s.advance.outputs = s.outputs := rfl
@[simp] theorem State.advance_getV  (r : Reg) : s.advance.getV r = s.getV r := rfl
@[simp] theorem State.advance_getKey  (j : Fin 16) : s.advance.getKey j = s.getKey j := rfl
@[simp] theorem State.advance_byteAt  (a' : Nat) : s.advance.byteAt a' = s.byteAt a' := rfl
@[simp] theorem State.advance_pixel  (px py : Nat) : s.advance.pixel px py = s.pixel px py := rfl

/-! ## State.resetWith -/

@[simp] theorem State.resetWith_font (font : Config.FontSet) : (State.resetWith font).font = font := rfl
@[simp] theorem State.resetWith_mem (font : Config.FontSet) : (State.resetWith font).mem = [] := rfl
@[simp] theorem State.resetWith_V (font : Config.FontSet) : (State.resetWith font).V = Vector.replicate 16 0 := rfl
@[simp] theorem State.resetWith_I (font : Config.FontSet) : (State.resetWith font).I = 0 := rfl
@[simp] theorem State.resetWith_pc (font : Config.FontSet) : (State.resetWith font).pc = 0x200 := rfl
@[simp] theorem State.resetWith_stack (font : Config.FontSet) : (State.resetWith font).stack = Vector.replicate 16 0 := rfl
@[simp] theorem State.resetWith_sp (font : Config.FontSet) : (State.resetWith font).sp = 0 := rfl
@[simp] theorem State.resetWith_fb (font : Config.FontSet) : (State.resetWith font).fb = 0 := rfl
@[simp] theorem State.resetWith_keys (font : Config.FontSet) : (State.resetWith font).keys = Vector.replicate 16 false := rfl
@[simp] theorem State.resetWith_DT (font : Config.FontSet) : (State.resetWith font).DT = 0 := rfl
@[simp] theorem State.resetWith_ST (font : Config.FontSet) : (State.resetWith font).ST = 0 := rfl
@[simp] theorem State.resetWith_status (font : Config.FontSet) : (State.resetWith font).status = .running := rfl
@[simp] theorem State.resetWith_soundReq (font : Config.FontSet) : (State.resetWith font).soundReq = false := rfl
@[simp] theorem State.resetWith_draws (font : Config.FontSet) : (State.resetWith font).draws = 0 := rfl
@[simp] theorem State.resetWith_inbox (font : Config.FontSet) : (State.resetWith font).inbox = [] := rfl
@[simp] theorem State.resetWith_outputs (font : Config.FontSet) : (State.resetWith font).outputs = [] := rfl

/-- Memory after construction: the table and then zeros (R35). -/
theorem State.byteAt_resetWith (font : Config.FontSet) (a : Nat) :
    (State.resetWith font).byteAt a = if h : a < 80 then font[a] else 0 := rfl

/-! ## opReset -/

@[simp] theorem opReset_font : (opReset s).font = s.font := rfl
@[simp] theorem opReset_mem : (opReset s).mem = [] := rfl
@[simp] theorem opReset_V : (opReset s).V = Vector.replicate 16 0 := rfl
@[simp] theorem opReset_I : (opReset s).I = 0 := rfl
@[simp] theorem opReset_pc : (opReset s).pc = 0x200 := rfl
@[simp] theorem opReset_stack : (opReset s).stack = Vector.replicate 16 0 := rfl
@[simp] theorem opReset_sp : (opReset s).sp = 0 := rfl
@[simp] theorem opReset_fb : (opReset s).fb = 0 := rfl
@[simp] theorem opReset_keys : (opReset s).keys = Vector.replicate 16 false := rfl
@[simp] theorem opReset_DT : (opReset s).DT = 0 := rfl
@[simp] theorem opReset_ST : (opReset s).ST = 0 := rfl
@[simp] theorem opReset_status : (opReset s).status = .running := rfl
@[simp] theorem opReset_soundReq : (opReset s).soundReq = false := rfl
@[simp] theorem opReset_draws : (opReset s).draws = s.draws := rfl
@[simp] theorem opReset_inbox : (opReset s).inbox = s.inbox := rfl
@[simp] theorem opReset_outputs : (opReset s).outputs = s.outputs := rfl

/-! ## Registers and keys -/

@[simp] theorem State.getV_setV_same (x : Reg) (b : Byte) : (s.setV x b).getV x = b := by
  simp [State.getV, Vector.get_eq_getElem]

theorem State.getV_setV (x r : Reg) (b : Byte) : (s.setV x b).getV r = if r = x then b else s.getV r := by
  by_cases h : r = x
  · subst h; simp
  · have hne : x.val ≠ r.val := fun e => h (Fin.ext e.symm)
    simp [State.getV, Vector.get_eq_getElem, h, hne]

@[simp] theorem State.getV_setV_other {x r : Reg} (b : Byte) (h : r ≠ x) : (s.setV x b).getV r = s.getV r := by
  simp [State.getV_setV, h]

theorem State.getKey_setKey (k j : Fin 16) (b : Bool) :
    (s.setKey k b).getKey j = if j = k then b else s.getKey j := by
  by_cases h : j = k
  · subst h; simp [State.getKey, Vector.get_eq_getElem]
  · have hne : k.val ≠ j.val := fun e => h (Fin.ext e.symm)
    simp [State.getKey, Vector.get_eq_getElem, h, hne]

theorem State.getV_loadRegsUpTo (x r : Reg) :
    (s.loadRegsUpTo x).getV r = if r ≤ x then s.byteAt (s.eaI r.val) else s.getV r := by
  simp [State.getV, Vector.get_eq_getElem]

/-- All that writing a result and a flag does to the registers: VF holds the flag, and any other register is the
result when it is the destination and is unchanged when it is not. -/
theorem State.getV_writeResultFlag (x r : Reg) (b : Byte) (f : Bool) :
    (s.writeResultFlag x b f).getV r = if r = regF then flagByte f else if r = x then b else s.getV r := by
  simp [State.writeResultFlag, State.getV_setV]

/-- With the flag written last, a shift writes as every other flag instruction does (log 6). -/
theorem State.writeShift_eq (x : Reg) (sh : Byte → Byte) (f : Bool) :
    s.writeShift x sh f = s.writeResultFlag x (sh (s.getV x)) f := rfl

/-! ## The skip -/

theorem State.skipIf_eq (c : Bool) : s.skipIf c = s.setPc (if c then s.pc + 2 else s.pc) := by
  cases c <;> rfl

/-! ## The stack -/

/-- Everything a push can do: it needs a free entry, writes the entry at sp and counts it. -/
theorem State.push_cases {t : State} {w : Word} (h : s.push w = some t) :
    ∃ hlt : s.sp.val < 16,
      t = { s with stack := s.stack.set s.sp.val w, sp := ⟨s.sp.val + 1, by omega⟩ } := by
  unfold State.push at h
  split at h
  · rename_i hlt
    exact ⟨hlt, (Option.some.inj h).symm⟩
  · cases h

/-- A push fails exactly when all 16 entries are in use. -/
theorem State.push_eq_none_iff {w : Word} : s.push w = none ↔ s.sp.val = 16 := by
  have := s.sp.isLt
  unfold State.push
  split <;> simp <;> omega

/-- Everything a pop can do: it needs an entry, returns the top one and leaves it in place. -/
theorem State.pop_cases {t : State} {w : Word} (h : s.pop = some (w, t)) :
    ∃ hlt : 0 < s.sp.val,
      w = s.stack.get ⟨s.sp.val - 1, by have := s.sp.isLt; omega⟩ ∧
      t = { s with sp := ⟨s.sp.val - 1, by have := s.sp.isLt; omega⟩ } := by
  unfold State.pop at h
  split at h
  · rename_i hlt
    cases h
    exact ⟨hlt, rfl, rfl⟩
  · cases h

/-- A pop fails exactly when no entry is in use. -/
theorem State.pop_eq_none_iff : s.pop = none ↔ s.sp.val = 0 := by
  unfold State.pop
  split <;> simp <;> omega

end Sys2Proof.Machine
end

