-- ==== Sys2Proof/Laws/Ops.lean ====
section
/-!
SUPPORT. What each shared operation can do, said once: the framebuffer, keys, timers, the fetch, the ports and a
step.
-/

namespace Sys2Proof.Machine

/-! ## Bytes of memory -/

theorem State.wf_storeBytes {s : State} (h : s.mem.wf s.font = true) (base : Nat) (bs : List Byte) :
    (s.storeBytes base bs).mem.wf (s.storeBytes base bs).font = true :=
  Memory.wf_store h base

/-- A stored byte reads as stored. -/
theorem State.byteAt_storeBytes_inside {s : State} (h : s.mem.wf s.font = true) {base : Nat} {bs : List Byte}
    (hfit : base + bs.length ≤ 4096) {k : Nat} (hk : k < bs.length) :
    (s.storeBytes base bs).byteAt (base + k) = bs[k] :=
  Memory.read_store_inside h hfit hk

/-- Every other byte reads as before. -/
theorem State.byteAt_storeBytes_outside {s : State} (h : s.mem.wf s.font = true) {base a : Nat} {bs : List Byte}
    (ha : a < base ∨ base + bs.length ≤ a) : (s.storeBytes base bs).byteAt a = s.byteAt a :=
  Memory.read_store_outside h ha

@[simp] theorem State.length_loadBytes (s : State) (base n : Nat) : (s.loadBytes base n).length = n :=
  Memory.length_load _ _ base n

theorem State.getElem_loadBytes (s : State) (base n k : Nat) (hk : k < (s.loadBytes base n).length) :
    (s.loadBytes base n)[k] = s.byteAt (base + k) :=
  Memory.getElem_load _ _ base n k hk

/-! ## The framebuffer -/

theorem Frame.cell_toggle (f : Frame) {k j : Nat} (hk : k < 2048) :
    Frame.cell (Frame.toggle f k) j = (Frame.cell f j ^^ decide (j = k)) := by
  by_cases h : j = k
  · subst h; simp [Frame.cell, Frame.toggle, hk]
  · have h' : k ≠ j := fun e => h e.symm
    simp [Frame.cell, Frame.toggle, BitVec.getLsbD_twoPow, h, h']

@[simp] theorem Frame.cell_clear (k : Nat) : Frame.cell Frame.clear k = false := by
  simp [Frame.cell, Frame.clear]

theorem cellIndex_lt (x y : Nat) : cellIndex x y < 2048 := by
  simp only [cellIndex, Config.fbHeight, Config.fbWidth]; omega

/-- Two positions share a cell exactly when they agree on the wrapping screen. -/
theorem cellIndex_eq_iff (x y x' y' : Nat) :
    cellIndex x y = cellIndex x' y' ↔ x % 64 = x' % 64 ∧ y % 32 = y' % 32 := by
  simp only [cellIndex, Config.fbHeight, Config.fbWidth]; omega

@[simp] theorem Canvas.hit_fb (c : Canvas) (k : Nat) : (c.hit k).fb = Frame.toggle c.fb k := rfl

@[simp] theorem Canvas.hit_collision (c : Canvas) (k : Nat) :
    (c.hit k).collision = (c.collision || Frame.cell c.fb k) := rfl

/-! ## Keys -/

theorem keyIndexOf_eq_none_iff {b : Byte} : keyIndexOf b = none ↔ 16 ≤ b.toNat := by
  unfold keyIndexOf
  split <;> simp <;> omega

theorem keyIndexOf_eq_some_iff {b : Byte} {k : Fin 16} : keyIndexOf b = some k ↔ b.toNat = k.val := by
  unfold keyIndexOf
  split
  · simp [Fin.ext_iff]
  · have := k.isLt
    simp; omega

theorem keyOfIndex_eq_some_iff {i : Int} {k : Fin 16} : keyOfIndex i = some k ↔ i = (k.val : Int) := by
  unfold keyOfIndex
  have := k.isLt
  split <;> simp [Fin.ext_iff] <;> omega

theorem keyOfIndex_eq_none_iff {i : Int} : keyOfIndex i = none ↔ ¬(0 ≤ i ∧ i < 16) := by
  unfold keyOfIndex
  split <;> simp_all

/-- No key is found exactly when none is pressed. -/
theorem State.firstKey_eq_none_iff {s : State} : s.firstKey = none ↔ ∀ k, s.getKey k = false := by
  simp [State.firstKey]

/-- The key found is pressed, and no lower one is. -/
theorem State.firstKey_some {s : State} {k : Fin 16} (h : s.firstKey = some k) :
    s.getKey k = true ∧ ∀ j, j < k → s.getKey j = false := by
  obtain ⟨hk, as, bs, hsplit, hbefore⟩ := List.find?_eq_some_iff_append.mp h
  refine ⟨hk, fun j hj => ?_⟩
  have hmem : j ∈ as ++ k :: bs := hsplit ▸ List.mem_finRange j
  have hsorted : (as ++ k :: bs).Pairwise (· < ·) := hsplit ▸ List.pairwise_lt_finRange 16
  rcases List.mem_append.mp hmem with hja | hjb
  · simpa using hbefore j hja
  · rcases List.mem_cons.mp hjb with rfl | hjb
    · exact absurd hj (lt_irrefl _)
    · have hlt := (List.pairwise_append.mp hsorted).2.1
      exact absurd (lt_trans hj ((List.pairwise_cons.mp hlt).1 j hjb)) (lt_irrefl _)

/-! ## Timers -/

/-- A countdown takes one off and stops at zero. -/
theorem countDown_toNat (b : Byte) : (countDown b).toNat = b.toNat - 1 := by
  unfold countDown
  split
  · rename_i h; subst h; rfl
  · rename_i h
    have hb : b.toNat ≠ 0 := fun e => h (BitVec.eq_of_toNat_eq (by simpa using e))
    bv_omega

/-! ## Fetch -/

theorem State.fetchFault_eq_none_iff {s : State} : s.fetchFault = none ↔ s.pc.toNat + 1 < 4096 := by
  simp only [State.fetchFault, Config.memSize]
  split <;> simp <;> omega

theorem wordOfBytes_high_low (op : Word) : wordOfBytes (highByte op) (lowByte op) = op := by
  apply BitVec.eq_of_getLsbD_eq
  intro i hi
  simp only [wordOfBytes, highByte, lowByte, BitVec.getLsbD_append]
  interval_cases i <;> simp

/-! ## Ports and steps -/

@[simp] theorem runPort_cycle (s : State) : runPort .cycle s = opCycle s := rfl
@[simp] theorem runPort_tick (s : State) : runPort .tick s = .next (opTick s) := rfl
@[simp] theorem runPort_key (s : State) (i : Int) (p : Bool) : runPort (.key i p) s = .next (opKey i p s) := rfl
@[simp] theorem runPort_load (s : State) (bs : List Byte) : runPort (.load bs) s = .next (opLoad bs s) := rfl
@[simp] theorem runPort_reset (s : State) : runPort .reset s = .next (opReset s) := rfl
@[simp] theorem runPort_readDisplay (s : State) : runPort .readDisplay s = .next (opReadDisplay s) := rfl

/-- Everything an op_cycle can do: nothing while halted, a Fetch fault, or the fetched instruction. -/
theorem opCycle_cases {s t : State} (h : opCycle s = .next t) :
    ((∃ f, s.status = .halted f) ∧ t = s) ∨
    (s.status = .running ∧ ∃ bad, s.fetchFault = some bad ∧ t = s.halt .fetch s.pc none (some bad)) ∨
    (s.status = .running ∧ s.fetchFault = none ∧ exec (decode s.fetchWord) s.advance = .next t) := by
  unfold opCycle at h
  split at h
  · rename_i f hf
    cases h
    exact .inl ⟨⟨f, hf⟩, rfl⟩
  · rename_i hrun
    split at h
    · rename_i bad hbad
      cases h
      exact .inr (.inl ⟨hrun, bad, hbad, rfl⟩)
    · rename_i hok
      exact .inr (.inr ⟨hrun, hok, h⟩)

/-- Everything a step can do: an op_cycle when no operation waits, else the first waiting operation. -/
theorem step_cases {s t : State} (h : step s = .next t) :
    (s.inbox = [] ∧ opCycle s = .next t) ∨
    (∃ op rest, s.inbox = op :: rest ∧ runPort op (s.setInbox rest) = .next t) := by
  unfold step nextPort at h
  split at h
  · exact .inl ⟨‹_›, h⟩
  · exact .inr ⟨_, _, ‹_›, h⟩

theorem step_of_inbox_nil {s : State} (h : s.inbox = []) : step s = opCycle s := by
  simp [step, nextPort, h, runPort]

theorem step_of_inbox_cons {s : State} {op : PortOp} {rest : List PortOp} (h : s.inbox = op :: rest) :
    step s = runPort op (s.setInbox rest) := by
  simp [step, nextPort, h]

/-- A step whose next operation is an op_cycle, listed or not, is that cycle with the operation taken from the list. -/
theorem step_of_cycleNext {s : State} (h : s.CycleNext) : step s = opCycle (s.setInbox s.inbox.tail) := by
  rcases h with h | ⟨rest, h⟩
  · rw [step_of_inbox_nil h, h]
    exact congrArg opCycle (by cases s; simp_all [State.setInbox])
  · rw [step_of_inbox_cons h, h]
    rfl

/-- A run of one step more: the first step, then the rest. -/
theorem run_succ_cases (M : Host.Core) {n : Nat} {a b : M.State} (h : M.run (n + 1) a = .next b) :
    ∃ c, M.step a = .next c ∧ M.run n c = .next b := by
  rw [Host.Core.run] at h
  split at h
  · exact ⟨_, ‹_›, h⟩
  · cases h
  · cases h

/-- What every step keeps, every run keeps. -/
theorem run_keeps {P : State → Prop} (hstep : ∀ s t, P s → step s = .next t → P t) {n : Nat} {s t : State}
    (hs : P s) (h : Host.Core.run Sys2Proof.core n s = .next t) : P t := by
  induction n generalizing s with
  | zero =>
    injection h with h
    exact h ▸ hs
  | succ n ih =>
    obtain ⟨c, hc, hrest⟩ := run_succ_cases Sys2Proof.core h
    exact ih (hstep s c hs hc) hrest

/-! ## The host's operations, case by case -/

theorem opTick_running {s : State} (h : s.status = .running) :
    opTick s = ((s.setDT (countDown s.DT)).setST (countDown s.ST)).setSoundReq (s.ST != 0) := by
  simp [opTick, h]

theorem opTick_halted {s : State} {f : FaultInfo} (h : s.status = .halted f) : opTick s = s.setSoundReq false := by
  simp [opTick, h]

theorem opKey_named (s : State) (k : Fin 16) (p : Bool) :
    opKey (k.val : Int) p s = (s.setKey k p).emit (.keyResult .ok) := by
  simp [opKey, keyOfIndex_eq_some_iff.mpr rfl]

theorem opKey_unnamed {s : State} {i : Int} {p : Bool} (h : ¬(0 ≤ i ∧ i < 16)) :
    opKey i p s = s.emit (.keyResult .keyError) := by
  simp [opKey, keyOfIndex_eq_none_iff.mpr h]

theorem opLoad_fits {s : State} {bytes : List Byte} (h : bytes.length + 0x200 ≤ 4096) :
    opLoad bytes s = (s.storeBytes 0x200 bytes).emit (.loadResult .ok) := by
  have : ¬(bytes.length + Config.progBase > Config.memSize) := by simp only [Config.progBase, Config.memSize]; omega
  simp only [opLoad, if_neg this]

theorem opLoad_tooLarge {s : State} {bytes : List Byte} (h : 4096 < bytes.length + 0x200) :
    opLoad bytes s = s.emit (.loadResult .romTooLarge) := by
  have : bytes.length + Config.progBase > Config.memSize := by simp only [Config.progBase, Config.memSize]; omega
  simp only [opLoad, if_pos this]

/-- A load either stores the whole image at 0x200 or leaves memory alone, and records which. -/
theorem opLoad_cases (s : State) (bytes : List Byte) :
    opLoad bytes s = (s.storeBytes 0x200 bytes).emit (.loadResult .ok) ∨
    opLoad bytes s = s.emit (.loadResult .romTooLarge) := by
  rcases Nat.lt_or_ge 4096 (bytes.length + 0x200) with h | h
  · exact .inr (opLoad_tooLarge h)
  · exact .inl (opLoad_fits h)

/-- A load keeps memory's canonical form. -/
theorem opLoad_wf {s : State} (hs : s.mem.wf s.font = true) (bytes : List Byte) :
    (opLoad bytes s).mem.wf (opLoad bytes s).font = true := by
  rcases opLoad_cases s bytes with h | h <;> rw [h]
  · exact State.wf_storeBytes hs _ _
  · exact hs

theorem opReset_wf (s : State) : (opReset s).mem.wf (opReset s).font = true := rfl

end Sys2Proof.Machine
end

