-- ==== Sys2Proof/Laws/PerInstr.lean ====
section
/-!
SUPPORT. Per instruction: its encoding matches its own row of the opcode table, and the catch-all's matches none.
-/

namespace Sys2Proof.Laws

theorem wordA_and_F000 (n1 : BitVec 4) (nnn : Addr) :
    wordA n1 nnn &&& 0xF000 = (n1 ++ (0 : BitVec 12) : Word) := by
  apply BitVec.eq_of_getLsbD_eq
  intro i hi
  simp only [wordA, BitVec.getLsbD_and, BitVec.getLsbD_append]
  interval_cases i <;> simp

theorem wordXB_and_F000 (n1 : BitVec 4) (x : Reg) (low : Byte) :
    wordXB n1 x low &&& 0xF000 = (n1 ++ (0 : BitVec 12) : Word) := by
  apply BitVec.eq_of_getLsbD_eq
  intro i hi
  simp only [wordXB, BitVec.getLsbD_and, BitVec.getLsbD_append]
  interval_cases i <;> simp

theorem wordXB_and_F0FF (n1 : BitVec 4) (x : Reg) (low : Byte) :
    wordXB n1 x low &&& 0xF0FF = (n1 ++ (0 : BitVec 4) ++ low : Word) := by
  apply BitVec.eq_of_getLsbD_eq
  intro i hi
  simp only [wordXB, BitVec.getLsbD_and, BitVec.getLsbD_append]
  interval_cases i <;> simp

theorem wordXY_and_F00F (n1 : BitVec 4) (x y : Reg) (last : BitVec 4) :
    wordXY n1 x y last &&& 0xF00F = (n1 ++ (0 : BitVec 8) ++ last : Word) := by
  apply BitVec.eq_of_getLsbD_eq
  intro i hi
  simp only [wordXY, BitVec.getLsbD_and, BitVec.getLsbD_append]
  interval_cases i <;> simp

theorem wordXY_and_F000 (n1 : BitVec 4) (x y : Reg) (last : BitVec 4) :
    wordXY n1 x y last &&& 0xF000 = (n1 ++ (0 : BitVec 12) : Word) := by
  apply BitVec.eq_of_getLsbD_eq
  intro i hi
  simp only [wordXY, BitVec.getLsbD_and, BitVec.getLsbD_append]
  interval_cases i <;> simp

end Sys2Proof.Laws

namespace Sys2Proof.Laws.TableRow

/-- A well-formed instruction's word has the fixed nibbles of its row, which is a row of the table; the catch-all's
word has those of none (30_encoding R73, R74, R76). -/
def Statement (i : Instr) : Prop :=
  i.wf = true →
    match i.row with
    | some r => r ∈ opcodeRows ∧ r.hits (encode i) = true
    | none => isKnownWord (encode i) = false

theorem cls : Statement (.cls) := by
  intro _
  exact ⟨by decide, by decide⟩

theorem ret : Statement (.ret) := by
  intro _
  exact ⟨by decide, by decide⟩

theorem jp (nnn : Addr) : Statement (.jp nnn) := by
  intro _
  refine ⟨by decide, ?_⟩
  simp only [OpcodeRow.hits, encode, wordA_and_F000]
  decide

theorem call (nnn : Addr) : Statement (.call nnn) := by
  intro _
  refine ⟨by decide, ?_⟩
  simp only [OpcodeRow.hits, encode, wordA_and_F000]
  decide

theorem seImm (x : Reg) (nn : Byte) : Statement (.seImm x nn) := by
  intro _
  refine ⟨by decide, ?_⟩
  simp only [OpcodeRow.hits, encode, wordXB_and_F000]
  decide

theorem sneImm (x : Reg) (nn : Byte) : Statement (.sneImm x nn) := by
  intro _
  refine ⟨by decide, ?_⟩
  simp only [OpcodeRow.hits, encode, wordXB_and_F000]
  decide

theorem seReg (x : Reg) (y : Reg) : Statement (.seReg x y) := by
  intro _
  refine ⟨by decide, ?_⟩
  simp only [OpcodeRow.hits, encode, wordXY_and_F00F]
  decide

theorem ldImm (x : Reg) (nn : Byte) : Statement (.ldImm x nn) := by
  intro _
  refine ⟨by decide, ?_⟩
  simp only [OpcodeRow.hits, encode, wordXB_and_F000]
  decide

theorem addImm (x : Reg) (nn : Byte) : Statement (.addImm x nn) := by
  intro _
  refine ⟨by decide, ?_⟩
  simp only [OpcodeRow.hits, encode, wordXB_and_F000]
  decide

theorem ldReg (x : Reg) (y : Reg) : Statement (.ldReg x y) := by
  intro _
  refine ⟨by decide, ?_⟩
  simp only [OpcodeRow.hits, encode, wordXY_and_F00F]
  decide

theorem orReg (x : Reg) (y : Reg) : Statement (.orReg x y) := by
  intro _
  refine ⟨by decide, ?_⟩
  simp only [OpcodeRow.hits, encode, wordXY_and_F00F]
  decide

theorem andReg (x : Reg) (y : Reg) : Statement (.andReg x y) := by
  intro _
  refine ⟨by decide, ?_⟩
  simp only [OpcodeRow.hits, encode, wordXY_and_F00F]
  decide

theorem xorReg (x : Reg) (y : Reg) : Statement (.xorReg x y) := by
  intro _
  refine ⟨by decide, ?_⟩
  simp only [OpcodeRow.hits, encode, wordXY_and_F00F]
  decide

theorem addReg (x : Reg) (y : Reg) : Statement (.addReg x y) := by
  intro _
  refine ⟨by decide, ?_⟩
  simp only [OpcodeRow.hits, encode, wordXY_and_F00F]
  decide

theorem subReg (x : Reg) (y : Reg) : Statement (.subReg x y) := by
  intro _
  refine ⟨by decide, ?_⟩
  simp only [OpcodeRow.hits, encode, wordXY_and_F00F]
  decide

theorem shr (x : Reg) (y : Reg) : Statement (.shr x y) := by
  intro _
  refine ⟨by decide, ?_⟩
  simp only [OpcodeRow.hits, encode, wordXY_and_F00F]
  decide

theorem subnReg (x : Reg) (y : Reg) : Statement (.subnReg x y) := by
  intro _
  refine ⟨by decide, ?_⟩
  simp only [OpcodeRow.hits, encode, wordXY_and_F00F]
  decide

theorem shl (x : Reg) (y : Reg) : Statement (.shl x y) := by
  intro _
  refine ⟨by decide, ?_⟩
  simp only [OpcodeRow.hits, encode, wordXY_and_F00F]
  decide

theorem sneReg (x : Reg) (y : Reg) : Statement (.sneReg x y) := by
  intro _
  refine ⟨by decide, ?_⟩
  simp only [OpcodeRow.hits, encode, wordXY_and_F00F]
  decide

theorem ldI (nnn : Addr) : Statement (.ldI nnn) := by
  intro _
  refine ⟨by decide, ?_⟩
  simp only [OpcodeRow.hits, encode, wordA_and_F000]
  decide

theorem jpV0 (nnn : Addr) : Statement (.jpV0 nnn) := by
  intro _
  refine ⟨by decide, ?_⟩
  simp only [OpcodeRow.hits, encode, wordA_and_F000]
  decide

theorem rnd (x : Reg) (nn : Byte) : Statement (.rnd x nn) := by
  intro _
  refine ⟨by decide, ?_⟩
  simp only [OpcodeRow.hits, encode, wordXB_and_F000]
  decide

theorem drw (x : Reg) (y : Reg) (n : Fin 16) : Statement (.drw x y n) := by
  intro _
  refine ⟨by decide, ?_⟩
  simp only [OpcodeRow.hits, encode, wordXY_and_F000]
  decide

theorem skp (x : Reg) : Statement (.skp x) := by
  intro _
  refine ⟨by decide, ?_⟩
  simp only [OpcodeRow.hits, encode, wordXB_and_F0FF]
  decide

theorem sknp (x : Reg) : Statement (.sknp x) := by
  intro _
  refine ⟨by decide, ?_⟩
  simp only [OpcodeRow.hits, encode, wordXB_and_F0FF]
  decide

theorem ldVxDt (x : Reg) : Statement (.ldVxDt x) := by
  intro _
  refine ⟨by decide, ?_⟩
  simp only [OpcodeRow.hits, encode, wordXB_and_F0FF]
  decide

theorem ldVxK (x : Reg) : Statement (.ldVxK x) := by
  intro _
  refine ⟨by decide, ?_⟩
  simp only [OpcodeRow.hits, encode, wordXB_and_F0FF]
  decide

theorem ldDtVx (x : Reg) : Statement (.ldDtVx x) := by
  intro _
  refine ⟨by decide, ?_⟩
  simp only [OpcodeRow.hits, encode, wordXB_and_F0FF]
  decide

theorem ldStVx (x : Reg) : Statement (.ldStVx x) := by
  intro _
  refine ⟨by decide, ?_⟩
  simp only [OpcodeRow.hits, encode, wordXB_and_F0FF]
  decide

theorem addIVx (x : Reg) : Statement (.addIVx x) := by
  intro _
  refine ⟨by decide, ?_⟩
  simp only [OpcodeRow.hits, encode, wordXB_and_F0FF]
  decide

theorem ldFVx (x : Reg) : Statement (.ldFVx x) := by
  intro _
  refine ⟨by decide, ?_⟩
  simp only [OpcodeRow.hits, encode, wordXB_and_F0FF]
  decide

theorem ldBVx (x : Reg) : Statement (.ldBVx x) := by
  intro _
  refine ⟨by decide, ?_⟩
  simp only [OpcodeRow.hits, encode, wordXB_and_F0FF]
  decide

theorem ldMemVx (x : Reg) : Statement (.ldMemVx x) := by
  intro _
  refine ⟨by decide, ?_⟩
  simp only [OpcodeRow.hits, encode, wordXB_and_F0FF]
  decide

theorem ldVxMem (x : Reg) : Statement (.ldVxMem x) := by
  intro _
  refine ⟨by decide, ?_⟩
  simp only [OpcodeRow.hits, encode, wordXB_and_F0FF]
  decide

theorem unknownOpcode (op : Word) : Statement (.unknownOpcode op) := by
  intro h; simpa [Instr.wf, Instr.row, encode] using h

end Sys2Proof.Laws.TableRow
end

