-- ==== Sys2Proof/Tests/Slice0.lean ====
section
/-!
SUPPORT. Tests and witnesses. Expected results are the spec's own worked examples and vectors (95_test_vectors: S, TE,
TC, TA, TD, TK, TT, TM, TL), never the model's answers.
-/

namespace Sys2Proof.Tests
open Sys2Proof.Machine

/-! ## Small states -/

/-- The reset state with one word at 0x200. -/
def prog (w : Nat) : State := State.reset.withFetchWord 16 w

/-- The same with the word at another address. -/
def progAt (a : Word) (w : Nat) : State := (State.reset.setPc a).withFetchWord 16 w

/-- Set some registers. -/
def regs (l : List (Reg × Byte)) (s : State) : State := l.foldl (fun s p => s.setV p.1 p.2) s

/-- Store bytes. -/
def bytes (a : Nat) (l : List Byte) (s : State) : State := s.storeBytes a l

/-- The stack with `n` entries in use, each 0x206. -/
def calls (n : Fin 17) (s : State) : State := { s with stack := Vector.replicate 16 0x206, sp := n }

/-- Operations to come. -/
def host (l : List PortOp) (s : State) : State := s.setInbox l

/-- The state after one step. -/
def stepped (s : State) : State :=
  match step s with
  | .next t => t
  | _ => s

/-- A halted status to test with. -/
def someHalt : FaultInfo := ⟨3, .keyIndex, 0x200, some 0xE09E, some 16⟩

/-! ## Decoding: every constructor by a word written out from its encoding (30_encoding R71, R73) -/

theorem test_decode_Z : decode 0b0000000011100000 = .cls ∧ decode 0b0000000011101110 = .ret := by decide

theorem test_decode_A :
    decode 0b0001001000110100 = .jp 0x234 ∧ decode 0b0010111111111111 = .call 0xFFF ∧
    decode 0b1010001100000000 = .ldI 0x300 ∧ decode 0b1011010100010000 = .jpV0 0x510 := by decide

theorem test_decode_XB :
    decode 0b0011001100000000 = .seImm 3 0x00 ∧ decode 0b0100000100000101 = .sneImm 1 0x05 ∧
    decode 0b0110000000001010 = .ldImm 0 0x0A ∧ decode 0b0111111100000001 = .addImm 15 0x01 ∧
    decode 0b1100001100001111 = .rnd 3 0x0F := by decide

theorem test_decode_XY :
    decode 0b0101000000010000 = .seReg 0 1 ∧ decode 0b1001000000010000 = .sneReg 0 1 ∧
    decode 0b1000000000010000 = .ldReg 0 1 ∧ decode 0b1000000000010001 = .orReg 0 1 ∧
    decode 0b1000000000010010 = .andReg 0 1 ∧ decode 0b1000000000010011 = .xorReg 0 1 ∧
    decode 0b1000111100010100 = .addReg 15 1 ∧ decode 0b1000000011110101 = .subReg 0 15 := by decide

theorem test_decode_XY_shifts :
    decode 0b1000001000110110 = .shr 2 3 ∧ decode 0b1000000000010111 = .subnReg 0 1 ∧
    decode 0b1000001000101110 = .shl 2 2 := by decide

theorem test_decode_XYN : decode 0b1101000000010101 = .drw 0 1 5 := by decide

theorem test_decode_XF :
    decode 0b1110010110011110 = .skp 5 ∧ decode 0b1110010110100001 = .sknp 5 ∧
    decode 0b1111001000000111 = .ldVxDt 2 ∧ decode 0b1111000100001010 = .ldVxK 1 ∧
    decode 0b1111001100010101 = .ldDtVx 3 ∧ decode 0b1111010000011000 = .ldStVx 4 ∧
    decode 0b1111000000011110 = .addIVx 0 ∧ decode 0b1111000000101001 = .ldFVx 0 := by decide

theorem test_decode_XF_memory :
    decode 0b1111000000110011 = .ldBVx 0 ∧ decode 0b1111000101010101 = .ldMemVx 1 ∧
    decode 0b1111001001100101 = .ldVxMem 2 := by decide

/-- TE3-TE9: words near a pattern that match none. -/
theorem test_decode_unknown :
    decode 0x00E1 = .unknownOpcode 0x00E1 ∧ decode 0x00FF = .unknownOpcode 0x00FF ∧
    decode 0x0123 = .unknownOpcode 0x0123 ∧ decode 0x5121 = .unknownOpcode 0x5121 ∧
    decode 0x800F = .unknownOpcode 0x800F ∧ decode 0x9011 = .unknownOpcode 0x9011 ∧
    decode 0xE19F = .unknownOpcode 0xE19F ∧ decode 0xF075 = .unknownOpcode 0xF075 := by decide

theorem test_decode_truncated : decodeBytes [0x60] = .error .truncated ∧ decodeBytes [] = .error .truncated :=
  ⟨rfl, rfl⟩

theorem test_decodeTableWord : decodeTableWord 16 0xD123 = some (.drw 1 2 3) := by decide

/-! ## Well-formedness: the one check refuses (R76) -/

theorem test_illformed_unknown :
    (Instr.unknownOpcode 0x00E0).wf = false ∧ (Instr.unknownOpcode 0x5120).wf = false := by decide

/-! ## Fetch and steps -/

/-- TE1: the event, pc = 0x202. -/
theorem test_unknown_event :
    (stepped (prog 0x0000)).outputs = [.unknownOpcode 0x200 0x0000] ∧ (stepped (prog 0x0000)).pc = 0x202 := by
  decide

/-- TE10: the last word of memory. -/
theorem test_fetch_last_word :
    (stepped (progAt 0xFFE 0x6007)).getV 0 = 0x07 ∧ (stepped (progAt 0xFFE 0x6007)).pc = 0x1000 := by decide

/-- TE11. -/
theorem test_fetch_fault_FFF :
    (stepped (State.reset.setPc 0xFFF)).status = .halted ⟨1, .fetch, 0xFFF, none, some 0x1000⟩ ∧
    (stepped (State.reset.setPc 0xFFF)).pc = 0xFFF := by decide

/-- TE12, TC17: the recorded address is pc itself at or above 4096. -/
theorem test_fetch_fault_10FE :
    (stepped (State.reset.setPc 0x10FE)).status = .halted ⟨1, .fetch, 0x10FE, none, some 0x10FE⟩ := by decide

/-- TE13: an odd pc executes. -/
theorem test_fetch_odd :
    (stepped (progAt 0x201 0x6122)).getV 1 = 0x22 ∧ (stepped (progAt 0x201 0x6122)).pc = 0x203 := by decide

/-- TE14. -/
theorem test_halted_cycle :
    (stepped ((prog 0x6007).setStatus (.halted someHalt))).getV 0 = 0 ∧
    (stepped ((prog 0x6007).setStatus (.halted someHalt))).pc = 0x200 := by decide

/-! ## Control transfer -/

/-- TC1. -/
theorem test_jp : (stepped (prog 0x1234)).pc = 0x234 := by decide

/-- TC3. -/
theorem test_call :
    (stepped (progAt 0x204 0x2210)).stack.get 0 = 0x206 ∧ (stepped (progAt 0x204 0x2210)).sp = 1 ∧
    (stepped (progAt 0x204 0x2210)).pc = 0x210 := by decide

/-- TC4. -/
theorem test_call_overflow :
    (stepped (calls 16 (progAt 0x300 0x2400))).status = .halted ⟨2, .stackOverflow, 0x300, some 0x2400, none⟩ ∧
    (stepped (calls 16 (progAt 0x300 0x2400))).pc = 0x302 := by decide

/-- TC5. -/
theorem test_ret :
    (stepped (calls 1 (progAt 0x212 0x00EE))).pc = 0x206 ∧ (stepped (calls 1 (progAt 0x212 0x00EE))).sp = 0 ∧
    (stepped (calls 1 (progAt 0x212 0x00EE))).stack.get 0 = 0x206 := by decide

/-- TC6. -/
theorem test_ret_underflow :
    (stepped (prog 0x00EE)).status = .halted ⟨2, .stackUnderflow, 0x200, some 0x00EE, none⟩ ∧
    (stepped (prog 0x00EE)).pc = 0x202 := by decide

/-- TC8, TC9. -/
theorem test_seImm :
    (stepped (progAt 0x208 0x3300)).pc = 0x20C ∧ (stepped (regs [(3, 1)] (progAt 0x208 0x3300))).pc = 0x20A := by
  decide

/-- TC10, TC11. -/
theorem test_sneImm :
    (stepped (regs [(1, 5)] (prog 0x4105))).pc = 0x202 ∧ (stepped (regs [(1, 6)] (prog 0x4105))).pc = 0x204 := by
  decide

/-- TC12. -/
theorem test_seReg :
    (stepped (regs [(0, 7), (1, 7)] (prog 0x5010))).pc = 0x204 ∧
    (stepped (regs [(0, 7), (1, 8)] (prog 0x5010))).pc = 0x202 := by decide

/-- TC14, TC15. -/
theorem test_sneReg :
    (stepped (regs [(0, 1), (1, 2)] (prog 0x9010))).pc = 0x204 ∧
    (stepped (regs [(2, 9)] (prog 0x9220))).pc = 0x202 := by decide

/-- TC17, TC20: always V0. -/
theorem test_jpV0 :
    (stepped (regs [(0, 0xFF)] (prog 0xBFFF))).pc = 0x10FE ∧
    (stepped (regs [(0, 1), (5, 9)] (prog 0xB510))).pc = 0x511 := by decide

/-! ## Loads and ALU -/

/-- TA1. -/
theorem test_ldImm : (stepped (prog 0x600A)).getV 0 = 0x0A := by decide

/-- S3, TA4: VF as a plain destination. -/
theorem test_addImm :
    (stepped (regs [(0, 0xFF), (15, 0x5A)] (prog 0x7002))).getV 0 = 0x01 ∧
    (stepped (regs [(0, 0xFF), (15, 0x5A)] (prog 0x7002))).getV 15 = 0x5A ∧
    (stepped (regs [(15, 0xFF)] (prog 0x7F01))).getV 15 = 0x00 := by decide

/-- TA5. -/
theorem test_ldReg : (stepped (regs [(1, 0x33)] (prog 0x8010))).getV 0 = 0x33 := by decide

/-- TA6. -/
theorem test_or :
    (stepped (regs [(0, 0x0F), (1, 0xF0), (15, 0x77)] (prog 0x8011))).getV 0 = 0xFF ∧
    (stepped (regs [(0, 0x0F), (1, 0xF0), (15, 0x77)] (prog 0x8011))).getV 15 = 0x77 := by decide

/-- TA7. -/
theorem test_and : (stepped (regs [(0, 0x3C), (1, 0x0F)] (prog 0x8012))).getV 0 = 0x0C := by decide

/-- TA8, TA9. -/
theorem test_xor :
    (stepped (regs [(0, 0xFF), (1, 0x0F)] (prog 0x8013))).getV 0 = 0xF0 ∧
    (stepped (regs [(0, 0xAB)] (prog 0x8003))).getV 0 = 0 := by decide

/-- S4. -/
theorem test_add :
    (stepped (regs [(0, 0xFF), (1, 0x02)] (prog 0x8014))).getV 0 = 0x01 ∧
    (stepped (regs [(0, 0xFF), (1, 0x02)] (prog 0x8014))).getV 15 = 1 := by decide

/-- TA14, TA15: VF as destination and as operand. -/
theorem test_add_vf :
    (stepped (regs [(15, 0xFF), (1, 0x01)] (prog 0x8F14))).getV 15 = 1 ∧
    (stepped (regs [(0, 0x10), (15, 0x20)] (prog 0x80F4))).getV 0 = 0x30 ∧
    (stepped (regs [(0, 0x10), (15, 0x20)] (prog 0x80F4))).getV 15 = 0 := by decide

/-- S5. -/
theorem test_sub :
    (stepped (regs [(0, 5), (1, 3)] (prog 0x8015))).getV 0 = 2 ∧
    (stepped (regs [(0, 5), (1, 3)] (prog 0x8015))).getV 15 = 1 ∧
    (stepped (regs [(0, 3), (1, 5)] (prog 0x8015))).getV 0 = 254 ∧
    (stepped (regs [(0, 3), (1, 5)] (prog 0x8015))).getV 15 = 0 := by decide

/-- TA18, TA22. -/
theorem test_sub_equal_and_vf :
    (stepped (regs [(0, 5), (1, 5)] (prog 0x8015))).getV 15 = 1 ∧
    (stepped (regs [(15, 0x20), (1, 0x10)] (prog 0x8F15))).getV 15 = 1 := by decide

/-- TA25: Y is ignored. -/
theorem test_shr :
    (stepped (regs [(2, 0x01), (3, 0xFF)] (prog 0x8236))).getV 2 = 0x00 ∧
    (stepped (regs [(2, 0x01), (3, 0xFF)] (prog 0x8236))).getV 15 = 1 := by decide

/-- TA26: the flag last. -/
theorem test_shr_vf : (stepped (regs [(15, 0x03)] (prog 0x8FF6))).getV 15 = 1 := by decide

/-- TA27, TA28. -/
theorem test_subn :
    (stepped (regs [(0, 3), (1, 5)] (prog 0x8017))).getV 0 = 2 ∧
    (stepped (regs [(0, 3), (1, 5)] (prog 0x8017))).getV 15 = 1 ∧
    (stepped (regs [(0, 5), (1, 3)] (prog 0x8017))).getV 0 = 0xFE ∧
    (stepped (regs [(0, 5), (1, 3)] (prog 0x8017))).getV 15 = 0 := by decide

/-- TA31. -/
theorem test_shl :
    (stepped (regs [(2, 0x81)] (prog 0x822E))).getV 2 = 0x02 ∧
    (stepped (regs [(2, 0x81)] (prog 0x822E))).getV 15 = 1 := by decide

/-- TA34: the flag last. -/
theorem test_shl_vf : (stepped (regs [(15, 0x7F)] (prog 0x8F0E))).getV 15 = 0 := by decide

/-- TA36: mask 0 gives 0 whatever the draw. -/
theorem test_rnd_mask_zero (s : State) : ∃ t, exec (.rnd 3 0x00) s = .next t ∧ t.getV 3 = 0 :=
  ⟨_, rfl, by simp⟩

/-- TA35: a draw of 0xA7 under the mask 0x0F. -/
theorem test_rnd_mask_low (s : State) (h : s.nextRand = 0xA7) :
    ∃ t, exec (.rnd 3 0x0F) s = .next t ∧ t.getV 3 = 0x07 :=
  ⟨_, rfl, by simp [h]⟩

/-! ## Display -/

/-- TD1. -/
theorem test_cls : (stepped ((prog 0x00E0).setFb 0xFFFF)).fb = 0 := by decide +kernel

/-- TD2: the corner pixel. -/
theorem test_drw_corner :
    (stepped (regs [(0, 63), (1, 31)] (bytes 0x20C [0x80] ((prog 0xD011).setI 0x20C)))).pixel 63 31 = true ∧
    (stepped (regs [(0, 63), (1, 31)] (bytes 0x20C [0x80] ((prog 0xD011).setI 0x20C)))).getV 15 = 0 := by
  decide +kernel

/-- TD6: a collision and a fresh pixel in one row. -/
theorem test_drw_collision :
    (stepped (bytes 0x300 [0xC0] (((prog 0xD011).setI 0x300).setFb 1))).fb = 2 ∧
    (stepped (bytes 0x300 [0xC0] (((prog 0xD011).setI 0x300).setFb 1))).getV 15 = 1 := by decide +kernel

/-- TD9: nothing is drawn when a row is out of range. -/
theorem test_drw_fault :
    (stepped (regs [(15, 0x55)] ((prog 0xD013).setI 0xFFE))).status =
      .halted ⟨1, .data, 0x200, some 0xD013, some 0x1000⟩ ∧
    (stepped (regs [(15, 0x55)] ((prog 0xD013).setI 0xFFE))).getV 15 = 0x55 := by decide

/-! ## Keypad and timers -/

/-- TK1, TK2. -/
theorem test_skp :
    (stepped ((regs [(5, 3)] (progAt 0x300 0xE59E)).setKey 3 true)).pc = 0x304 ∧
    (stepped (regs [(5, 3)] (progAt 0x300 0xE59E))).pc = 0x302 := by decide

/-- TK3. -/
theorem test_sknp : (stepped (regs [(5, 3)] (progAt 0x300 0xE5A1))).pc = 0x304 := by decide

/-- TK4. -/
theorem test_key_index_fault :
    (stepped (regs [(5, 16)] (prog 0xE59E))).status = .halted ⟨3, .keyIndex, 0x200, some 0xE59E, some 16⟩ ∧
    (stepped (regs [(5, 16)] (prog 0xE5A1))).status = .halted ⟨3, .keyIndex, 0x200, some 0xE5A1, some 16⟩ := by
  decide

/-- TK5. -/
theorem test_key_wait : (stepped (prog 0xF10A)).pc = 0x200 := by decide

/-- TK6. -/
theorem test_key_lowest :
    (stepped (((prog 0xF10A).setKey 9 true).setKey 2 true)).getV 1 = 2 ∧
    (stepped (((prog 0xF10A).setKey 9 true).setKey 2 true)).pc = 0x202 := by decide

/-- TK8, TK9, TK10. -/
theorem test_timer_transfers :
    (stepped ((prog 0xF207).setDT 0x3C)).getV 2 = 0x3C ∧ (stepped (regs [(3, 3)] (prog 0xF315))).DT = 3 ∧
    (stepped (regs [(4, 2)] (prog 0xF418))).ST = 2 ∧ (stepped (regs [(4, 2)] (prog 0xF418))).soundReq = false := by
  decide

/-- TT1, TT3. -/
theorem test_tick :
    (stepped (host [.tick] ((State.reset.setDT 2).setST 1))).DT = 1 ∧
    (stepped (host [.tick] ((State.reset.setDT 2).setST 1))).ST = 0 ∧
    (stepped (host [.tick] ((State.reset.setDT 2).setST 1))).soundReq = true ∧
    (stepped (host [.tick] State.reset)).DT = 0 ∧ (stepped (host [.tick] State.reset)).soundReq = false := by decide

/-- TT4. -/
theorem test_tick_halted :
    (stepped (host [.tick] (((State.reset.setDT 5).setSoundReq true).setStatus (.halted someHalt)))).DT = 5 ∧
    (stepped (host [.tick] (((State.reset.setDT 5).setSoundReq true).setStatus (.halted someHalt)))).soundReq =
      false := by decide

/-- TK11, TK12. -/
theorem test_key :
    (stepped (host [.key 7 true] State.reset)).getKey 7 = true ∧
    (stepped (host [.key 16 true] State.reset)).outputs = [.keyResult .keyError] ∧
    (stepped (host [.key (-1) true] State.reset)).outputs = [.keyResult .keyError] := by decide

/-! ## Index register and memory -/

/-- TM1. -/
theorem test_ldI : (stepped (prog 0xA300)).I = 0x300 := by decide

/-- TM3. -/
theorem test_addI :
    (stepped (regs [(0, 1), (15, 0x55)] ((prog 0xF01E).setI 0xFFFF))).I = 0x0000 ∧
    (stepped (regs [(0, 1), (15, 0x55)] ((prog 0xF01E).setI 0xFFFF))).getV 15 = 0x55 := by decide

/-- TM5, TM7: not masked. -/
theorem test_ldF :
    (stepped (regs [(0, 5)] (prog 0xF029))).I = 0x19 ∧ (stepped (regs [(0, 0xFF)] (prog 0xF029))).I = 0x4FB := by
  decide

/-- S12. -/
theorem test_bcd :
    (stepped (regs [(0, 234)] ((prog 0xF033).setI 0x300))).loadBytes 0x300 3 = [2, 3, 4] := by decide

/-- TM12, TM13: no wrap. -/
theorem test_bcd_fault :
    (stepped ((prog 0xF033).setI 0xFFE)).status = .halted ⟨1, .data, 0x200, some 0xF033, some 0x1000⟩ ∧
    (stepped ((prog 0xF033).setI 0xFFFF)).status = .halted ⟨1, .data, 0x200, some 0xF033, some 0xFFFF⟩ := by decide

/-- TM14. -/
theorem test_store :
    (stepped (regs [(0, 1), (1, 2), (2, 9)] ((prog 0xF155).setI 0x400))).loadBytes 0x400 3 = [1, 2, 0] ∧
    (stepped (regs [(0, 1), (1, 2), (2, 9)] ((prog 0xF155).setI 0x400))).I = 0x400 := by decide

/-- TM17. -/
theorem test_store_fault :
    (stepped (regs [(0, 1), (1, 2)] ((prog 0xF155).setI 0xFFF))).byteAt 0xFFF = 0 := by decide

/-- TM18. -/
theorem test_load :
    (stepped (bytes 0x300 [2, 3, 4, 5] ((prog 0xF265).setI 0x300))).getV 2 = 4 ∧
    (stepped (bytes 0x300 [2, 3, 4, 5] ((prog 0xF265).setI 0x300))).getV 3 = 0 := by decide

/-- TM20. -/
theorem test_load_fault :
    (stepped ((prog 0xFF65).setI 0xFF1)).status = .halted ⟨1, .data, 0x200, some 0xFF65, some 0x1000⟩ := by decide

/-! ## Load and reset -/

/-- S11's first bytes: op_load at 0x200. -/
theorem test_op_load :
    (stepped (host [.load [0x60, 0x0A]] State.reset)).fetchWord = 0x600A ∧
    (stepped (host [.load [0x60, 0x0A]] State.reset)).outputs = [.loadResult .ok] := by decide

/-- TL4: a reset erases the program and leaves a halt. -/
theorem test_op_reset :
    stepped (host [.reset] (regs [(0, 1)] ((prog 0x600A).setStatus (.halted someHalt)))) = State.reset := by
  decide +kernel

/-- The canonical form: writing a font byte's reset value lists nothing, and an overwrite lists one cell. -/
theorem test_memory_canonical :
    Memory.write fontset [] 0x000 0xF0 = [] ∧ Memory.write fontset [] 0x000 0x11 = [(0x000, 0x11)] ∧
    Memory.write fontset [(0x000, 0x11)] 0x000 0xF0 = [] ∧
    Memory.write fontset [(0x300, 1)] 0x200 2 = [(0x200, 2), (0x300, 1)] := by decide

/-- R31, R35, C5: another table is read in its place, outlives a store to the font region, and comes back at a reset. -/
theorem test_other_font_table :
    let font : Config.FontSet := Vector.replicate 80 0x3C
    let s := bytes 0x000 [0x11] (host [.reset] (State.resetWith font))
    (State.resetWith font).byteAt 0x04F = 0x3C ∧ (State.resetWith font).byteAt 0x050 = 0 ∧
    s.byteAt 0x000 = 0x11 ∧ (stepped s).byteAt 0x000 = 0x3C := by decide

/-! ## Witnesses: for each statement with hypotheses, states and operands that meet them -/

theorem witness_DecodeOfEncodeIsIdentity :
    (Instr.unknownOpcode 0x0123).wf = true ∧ (Instr.drw 15 15 15).wf = true := by decide

theorem witness_PatternsArePairwiseDisjoint :
    (∃ r ∈ opcodeRows, r.hits 0xFF65 = true) ∧ ∃ w, decode 0xFFFF = .unknownOpcode w :=
  ⟨⟨⟨0xF0FF, 0xF065⟩, by decide, by decide⟩, 0xFFFF, by decide⟩

theorem witness_DecodingConsumesTwoBytes : (Instr.unknownOpcode 0x9011).wf = true := by decide

/-- At an even and at an odd pc, with the cycle unlisted and listed. -/
theorem witness_StepRunsTheDecodedInstruction :
    ∀ l ∈ ([[], [.cycle, .tick]] : List (List PortOp)), ∀ pc ∈ ([0xFFE, 0x201] : List Word),
      ∃ (i : Instr) (s : State), i.wf = true ∧ s.status = .running ∧ s.inbox = l ∧ s.CycleNext ∧ s.pc = pc ∧
        s.pc.toNat + 1 < 4096 ∧ s.byteAt s.pc.toNat = highByte (encode i) ∧
        s.byteAt (s.pc.toNat + 1) = lowByte (encode i) := by
  intro l hl pc hpc
  simp only [List.mem_cons, List.not_mem_nil, or_false] at hl hpc
  refine ⟨.ldImm 0 7, host l (progAt pc 0x6007), ?_⟩
  rcases hl with rfl | rfl <;> rcases hpc with rfl | rfl <;>
    exact ⟨by decide, by decide, by decide, by first | exact .inl rfl | exact .inr ⟨_, rfl⟩, by decide, by decide,
      by decide, by decide⟩

/-- At both ends of the record's address rule, with the cycle unlisted and listed. -/
theorem witness_FetchOutsideMemoryHalts :
    (∃ s : State, s.status = .running ∧ s.CycleNext ∧ s.inbox = [] ∧ 4096 ≤ s.pc.toNat + 1 ∧ ¬4096 ≤ s.pc.toNat) ∧
    (∃ s : State, s.status = .running ∧ s.CycleNext ∧ s.inbox = [.cycle] ∧ 4096 ≤ s.pc.toNat + 1 ∧
      4096 ≤ s.pc.toNat) :=
  ⟨⟨State.reset.setPc 0xFFF, rfl, .inl rfl, rfl, by decide, by decide⟩,
   ⟨host [.cycle] (State.reset.setPc 0x1000), rfl, .inr ⟨_, rfl⟩, rfl, by decide, by decide⟩⟩

/-- R80, R240: a listed op_cycle runs the word at pc and leaves the operations after it. -/
theorem test_listed_cycle_runs :
    ∃ t, step (host [.cycle, .tick] (prog 0x600A)) = .next t ∧ t.getV 0 = 0x0A ∧ t.pc = 0x202 ∧ t.inbox = [.tick] :=
  ⟨_, rfl, by decide, by decide, by decide⟩

/-- A halted state with one operation waiting, and that it steps. -/
theorem witness_HaltedEngineIsFrozenUntilReset :
    ∀ l ∈ ([[], [.cycle], [.tick], [.key 15 true], [.load [1]], [.readDisplay], [.reset]] : List (List PortOp)),
      ∃ s t : State, s.status = .halted someHalt ∧ s.inbox = l ∧ step s = .next t := by
  intro l hl
  simp only [List.mem_cons, List.not_mem_nil, or_false] at hl
  refine ⟨(State.reset.setStatus (.halted someHalt)).setInbox l, ?_⟩
  rcases hl with rfl | rfl | rfl | rfl | rfl | rfl | rfl <;> exact ⟨_, rfl, rfl, rfl⟩

theorem witness_HaltedEngineLeavesByReset :
    ∃ s t : State, s.status = .halted someHalt ∧ step s = .next t ∧ t.status ≠ .halted someHalt :=
  ⟨(State.reset.setStatus (.halted someHalt)).setInbox [.reset], _, rfl, rfl, by decide⟩

theorem witness_FatalFaultsArePrecise :
    ∃ t : State, State.reset.status = .running ∧ exec .ret State.reset = .next t ∧ t.status ≠ .running :=
  ⟨_, rfl, rfl, by decide⟩

theorem witness_TickCountsBothTimersDown :
    (∃ s : State, s.inbox = [.tick] ∧ s.status = .running ∧ s.ST.toNat ≠ 0) ∧
    (∃ s : State, s.inbox = [.tick] ∧ s.status ≠ .running) :=
  ⟨⟨host [.tick] (State.reset.setST 255), rfl, rfl, by decide⟩,
   ⟨host [.tick] (State.reset.setStatus (.halted someHalt)), rfl, by decide⟩⟩

theorem witness_KeypressSetsTheNamedKey :
    (host [.key 15 true] State.reset).inbox = [.key 15 true] ∧
    (host [.key 16 true] State.reset).inbox = [.key 16 true] := ⟨rfl, rfl⟩

theorem witness_LoadCopiesARomThatFits :
    (∃ (s : State) (bs : List Byte), s.mem.wf s.font = true ∧ s.inbox = [.load bs] ∧ bs.length + 0x200 ≤ 4096) ∧
    (∃ (s : State) (bs : List Byte), s.mem.wf s.font = true ∧ s.inbox = [.load bs] ∧ 4096 < bs.length + 0x200) :=
  ⟨⟨host [.load (List.replicate 3584 1)] State.reset, _, rfl, rfl, by rw [List.length_replicate]⟩,
   ⟨host [.load (List.replicate 3585 1)] State.reset, _, rfl, rfl, by rw [List.length_replicate]; omega⟩⟩

theorem witness_ResetRestoresEveryElement : (host [.reset, .tick] State.reset).inbox = [.reset, .tick] := rfl

theorem witness_DisplayReadIsRowMajor : (host [.readDisplay] State.reset).inbox = [.readDisplay] := rfl

theorem witness_CallPushesTheReturnAddress : ∃ s : State, s.sp.val < 16 ∧ s.sp.val = 15 :=
  ⟨calls 15 State.reset, by decide, by decide⟩

theorem witness_ReturnPopsTheTopEntry : ∃ (s : State) (k : Fin 16), s.sp.val = k.val + 1 ∧ k = 15 :=
  ⟨calls 16 State.reset, 15, by decide, rfl⟩

theorem witness_StackFaultsHalt : (calls 16 State.reset).sp.val = 16 ∧ State.reset.sp.val = 0 := by decide

theorem witness_ReturnUndoesCall :
    ∃ s t u v : State, s.sp.val < 16 ∧ exec (.call 0x300) s = .next t ∧ u.stack = t.stack ∧ u.sp = t.sp ∧
      exec .ret u = .next v :=
  ⟨State.reset, _, _, _, by decide, rfl, rfl, rfl, rfl⟩

/-- The last row of memory, and no row at all with I out of range. -/
theorem witness_DrawFlipsExactlyTheCoveredPixels :
    (∃ s : State, ∀ row, row < (1 : Fin 16).val → s.I.toNat + row < 4096) ∧
    (∃ s : State, s.I = 0xFFFF ∧ ∀ row, row < (0 : Fin 16).val → s.I.toNat + row < 4096) :=
  ⟨⟨State.reset.setI 0xFFF, by decide⟩, ⟨State.reset.setI 0xFFFF, rfl, by decide⟩⟩

/-- A covered pixel that is set (the font's first row on a lit pixel), and one that is not. -/
theorem witness_DrawFlipsExactlyTheCoveredPixels_collision :
    ((State.reset.setFb 1).pixel 0 0 = true ∧ SpriteCovers (State.reset.setFb 1) 0 0 1 0 0) ∧
    State.reset.pixel 0 0 = false ∧ SpriteCovers State.reset 0 0 1 0 0 :=
  ⟨⟨by decide +kernel, 0, 0, by decide, by decide, by decide, by decide, by decide⟩,
   by decide +kernel, 0, 0, by decide, by decide, by decide, by decide, by decide⟩

theorem witness_DrawOutsideMemoryHalts :
    ∃ (s : State) (bad row : Nat), row < (15 : Fin 16).val ∧ bad = s.I.toNat + row ∧ 4096 ≤ bad ∧
      ∀ j, j < row → s.I.toNat + j < 4096 :=
  ⟨State.reset.setI 0xFF2, 4096, 14, by decide, by decide, by decide, by decide⟩

theorem witness_DrawingTwiceRestoresTheScreen :
    ∃ s t u : State, (∀ row, row < (5 : Fin 16).val → s.I.toNat + row < 4096) ∧ exec (.drw 0 1 5) s = .next t ∧
      t.getV 0 = s.getV 0 ∧ t.getV 1 = s.getV 1 ∧ exec (.drw 0 1 5) t = .next u ∧
      ∃ row col, row < (5 : Fin 16).val ∧ col < 8 ∧ (s.byteAt (s.I.toNat + row)).getLsbD (7 - col) = true ∧
        s.pixel ((s.getV 0).toNat + col) ((s.getV 1).toNat + row) = false :=
  ⟨State.reset, _, _, by decide, rfl, by decide, by decide, rfl, 0, 0, by decide, by decide, by decide,
   by decide +kernel⟩

theorem witness_KeySkipsTestTheKey : ((regs [(3, 15)] State.reset).getV 3).toNat = (15 : Fin 16).val := by decide

theorem witness_KeyIndexOutOfRangeHalts : 16 ≤ ((regs [(3, 16)] State.reset).getV 3).toNat := by decide

theorem witness_KeyWaitTakesTheLowestKeyOrRewinds :
    (∃ s : State, s.getKey 15 = true ∧ ∀ j, j < (15 : Fin 16) → s.getKey j = false) ∧
    (∀ k, State.reset.getKey k = false) :=
  ⟨⟨State.reset.setKey 15 true, by decide, by decide⟩, by decide⟩

theorem witness_KeyWaitLeavesTheStateAsItWas :
    ∀ l ∈ ([[], [.cycle]] : List (List PortOp)),
      ∃ s : State, s.status = .running ∧ s.inbox = l ∧ s.CycleNext ∧ s.pc.toNat + 1 < 4096 ∧
        s.byteAt s.pc.toNat = highByte (encode (.ldVxK 1)) ∧
        s.byteAt (s.pc.toNat + 1) = lowByte (encode (.ldVxK 1)) ∧ ∀ k, s.getKey k = false := by
  intro l hl
  simp only [List.mem_cons, List.not_mem_nil, or_false] at hl
  refine ⟨host l (prog 0xF10A), ?_⟩
  rcases hl with rfl | rfl <;>
    exact ⟨by decide, by decide, by first | exact .inl rfl | exact .inr ⟨_, rfl⟩, by decide, by decide, by decide,
      by decide⟩

theorem witness_BcdStoresThreeDigits : ∃ s : State, s.mem.wf s.font = true ∧ s.I.toNat + 2 < 4096 ∧ s.I = 0xFFD :=
  ⟨State.reset.setI 0xFFD, rfl, by decide, rfl⟩

theorem witness_BlockStoreWritesV0ToVx :
    ∃ s : State, s.mem.wf s.font = true ∧ s.I.toNat + (15 : Reg).val < 4096 ∧ s.I = 0xFF0 :=
  ⟨State.reset.setI 0xFF0, rfl, by decide, rfl⟩

theorem witness_BlockLoadReadsV0ToVx : ∃ s : State, s.I.toNat + (0 : Reg).val < 4096 ∧ s.I = 0xFFF :=
  ⟨State.reset.setI 0xFFF, by decide, rfl⟩

theorem witness_BlockAccessOutsideMemoryHalts :
    (∃ s : State, 4096 ≤ s.I.toNat + 2 ∧ s.I = 0xFFE) ∧ (∃ s : State, 4096 ≤ s.I.toNat + (1 : Reg).val) :=
  ⟨⟨State.reset.setI 0xFFE, by decide, rfl⟩, ⟨State.reset.setI 0xFFF, by decide⟩⟩

theorem witness_BlockLoadReturnsWhatBlockStoreWrote :
    ∃ s t u v : State, s.mem.wf s.font = true ∧ s.I.toNat + (3 : Reg).val < 4096 ∧ exec (.ldMemVx 3) s = .next t ∧
      (∀ a, u.byteAt a = t.byteAt a) ∧ u.I = s.I ∧ exec (.ldVxMem 3) u = .next v :=
  ⟨State.reset.setI 0x300, _, _, _, rfl, by decide, rfl, fun _ => rfl, rfl, rfl⟩

theorem witness_StoredBytesAreFetched :
    ∃ s t : State, s.mem.wf s.font = true ∧ s.I.toNat + (1 : Reg).val < 4096 ∧ 1 ≤ (1 : Reg).val ∧
      exec (.ldMemVx 1) s = .next t :=
  ⟨State.reset.setI 0xFFE, _, rfl, by decide, by decide, rfl⟩

theorem witness_InstructionsStayInTheirFootprint : ∃ t, exec (.addReg 15 0) State.reset = .next t := ⟨_, rfl⟩

theorem witness_RegistersChangeOnlyAsDestinations :
    ∃ t, exec (.ldVxMem 14) State.reset = .next t ∧ ¬MayWriteReg 15 (.ldVxMem 14) :=
  ⟨_, rfl, by unfold MayWriteReg; decide⟩

theorem witness_OnlyRandomInstructionsDraw :
    ∃ s t : State, step s = .next t ∧ t.draws ≠ s.draws :=
  ⟨prog 0xC30F, _, rfl, by decide⟩

theorem witness_SoundChangesOnlyAtTickOrReset :
    ∃ s t : State, step s = .next t ∧ t.soundReq ≠ s.soundReq :=
  ⟨host [.tick] (State.reset.setST 1), _, rfl, by decide⟩

theorem witness_EveryStepKeepsTheInvariant : ∃ s t : State, MachineInv s ∧ step s = .next t :=
  ⟨State.reset.setPc 0x10FE, _, ⟨rfl, by decide, by decide, rfl⟩, rfl⟩

theorem witness_FontTableNeverChanges : ∃ s t : State, step s = .next t :=
  ⟨host [.reset] (State.resetWith (Vector.replicate 80 0x3C)), _, rfl⟩

theorem witness_EveryScheduleStaysSound : ∃ s, ReachedBy (Vector.replicate 80 0x3C) [.load [0x60, 0x0A], .cycle, .tick] 1 s := ⟨_, rfl⟩

end Sys2Proof.Tests
end

namespace Sys2Proof.Machine

/-! ## What each instruction does: an equation per instruction that cannot fault or wait -/

section ExecEquations

variable (s : State) (x y : Reg) (nn : Byte) (nnn : Addr) (op : Word)

theorem exec_cls : exec .cls s = .next (s.setFb Frame.clear) := rfl
theorem exec_jp : exec (.jp nnn) s = .next (s.setPc (zextAddr nnn)) := rfl
theorem exec_seImm : exec (.seImm x nn) s = .next (s.skipIf (s.getV x == nn)) := rfl
theorem exec_sneImm : exec (.sneImm x nn) s = .next (s.skipIf (s.getV x != nn)) := rfl
theorem exec_seReg : exec (.seReg x y) s = .next (s.skipIf (s.getV x == s.getV y)) := rfl
theorem exec_sneReg : exec (.sneReg x y) s = .next (s.skipIf (s.getV x != s.getV y)) := rfl
theorem exec_ldImm : exec (.ldImm x nn) s = .next (s.setV x nn) := rfl
theorem exec_addImm : exec (.addImm x nn) s = .next (s.setV x (s.getV x + nn)) := rfl
theorem exec_ldReg : exec (.ldReg x y) s = .next (s.setV x (s.getV y)) := rfl
theorem exec_orReg : exec (.orReg x y) s = .next (s.setV x (s.getV x ||| s.getV y)) := rfl
theorem exec_andReg : exec (.andReg x y) s = .next (s.setV x (s.getV x &&& s.getV y)) := rfl
theorem exec_xorReg : exec (.xorReg x y) s = .next (s.setV x (s.getV x ^^^ s.getV y)) := rfl
theorem exec_addReg : exec (.addReg x y) s =
    .next (s.writeResultFlag x (s.getV x + s.getV y) (carryOut (s.getV x) (s.getV y))) := rfl
theorem exec_subReg : exec (.subReg x y) s =
    .next (s.writeResultFlag x (s.getV x - s.getV y) (noBorrow (s.getV x) (s.getV y))) := rfl
theorem exec_subnReg : exec (.subnReg x y) s =
    .next (s.writeResultFlag x (s.getV y - s.getV x) (noBorrow (s.getV y) (s.getV x))) := rfl
theorem exec_shr : exec (.shr x y) s =
    .next (s.writeResultFlag x (s.getV x >>> 1) (outRight (s.getV x))) := rfl
theorem exec_shl : exec (.shl x y) s =
    .next (s.writeResultFlag x (s.getV x <<< 1) (outLeft (s.getV x))) := rfl
theorem exec_ldI : exec (.ldI nnn) s = .next (s.setI (zextAddr nnn)) := rfl
theorem exec_jpV0 : exec (.jpV0 nnn) s = .next (s.setPc (zext16 (s.getV reg0) + zextAddr nnn)) := rfl
theorem exec_rnd : exec (.rnd x nn) s = .next (s.countDraw.setV x (s.nextRand &&& nn)) := rfl
theorem exec_ldVxDt : exec (.ldVxDt x) s = .next (s.setV x s.DT) := rfl
theorem exec_ldDtVx : exec (.ldDtVx x) s = .next (s.setDT (s.getV x)) := rfl
theorem exec_ldStVx : exec (.ldStVx x) s = .next (s.setST (s.getV x)) := rfl
theorem exec_addIVx : exec (.addIVx x) s = .next (s.setI (s.I + zext16 (s.getV x))) := rfl
theorem exec_ldFVx : exec (.ldFVx x) s = .next (s.setI (zext16 (s.getV x) * 5)) := rfl
theorem exec_unknownOpcode : exec (.unknownOpcode op) s = .next (s.emit (.unknownOpcode s.instrAddr op)) := rfl

end ExecEquations

/-- An instruction has one outcome. -/
theorem eq_of_exec {i : Instr} {s t u : State} (he : exec i s = .next u) (h : exec i s = .next t) : t = u :=
  Host.Outcome.next.inj (h.symm.trans he)

/-! ## What each instruction that faults or waits can do -/

section ExecCases

variable {s t : State} {x y : Reg}

theorem exec_ret_cases (h : exec .ret s = .next t) :
    (s.pop = none ∧ t = s.faultOf .ret .stackUnderflow none) ∨ ∃ w u, s.pop = some (w, u) ∧ t = u.setPc w := by
  change execRet s = _ at h
  unfold execRet at h
  split at h <;> cases h
  · exact .inl ⟨‹_›, rfl⟩
  · exact .inr ⟨_, _, ‹_›, rfl⟩

theorem exec_call_cases {nnn : Addr} (h : exec (.call nnn) s = .next t) :
    (s.push s.pc = none ∧ t = s.faultOf (.call nnn) .stackOverflow none) ∨
    ∃ u, s.push s.pc = some u ∧ t = u.setPc (zextAddr nnn) := by
  change execCall nnn s = _ at h
  unfold execCall at h
  split at h <;> cases h
  · exact .inl ⟨‹_›, rfl⟩
  · exact .inr ⟨_, ‹_›, rfl⟩

theorem exec_drw_cases {n : Fin 16} (h : exec (.drw x y n) s = .next t) :
    (∃ bad, outOfRange (s.eaI 0) n.val = some bad ∧ t = s.faultOf (.drw x y n) .data (some bad)) ∨
    (outOfRange (s.eaI 0) n.val = none ∧ ∃ c : Canvas,
      c = drawSprite s.fb (s.getV x).toNat (s.getV y).toNat (s.loadBytes (s.eaI 0) n.val) ∧
      t = (s.setFb c.fb).setV regF (flagByte c.collision)) := by
  change execDrw x y n s = _ at h
  unfold execDrw at h
  split at h <;> cases h
  · exact .inl ⟨_, ‹_›, rfl⟩
  · exact .inr ⟨‹_›, _, rfl, rfl⟩

theorem exec_skp_cases (h : exec (.skp x) s = .next t) :
    (16 ≤ (s.getV x).toNat ∧ t = s.faultOf (.skp x) .keyIndex (some (s.getV x).toNat)) ∨
    ∃ k : Fin 16, (s.getV x).toNat = k.val ∧ t = s.skipIf (s.getKey k) := by
  change execSkp x s = _ at h
  unfold execSkp at h
  split at h <;> cases h
  · exact .inl ⟨keyIndexOf_eq_none_iff.mp ‹_›, rfl⟩
  · exact .inr ⟨_, keyIndexOf_eq_some_iff.mp ‹_›, rfl⟩

theorem exec_sknp_cases (h : exec (.sknp x) s = .next t) :
    (16 ≤ (s.getV x).toNat ∧ t = s.faultOf (.sknp x) .keyIndex (some (s.getV x).toNat)) ∨
    ∃ k : Fin 16, (s.getV x).toNat = k.val ∧ t = s.skipIf (!s.getKey k) := by
  change execSknp x s = _ at h
  unfold execSknp at h
  split at h <;> cases h
  · exact .inl ⟨keyIndexOf_eq_none_iff.mp ‹_›, rfl⟩
  · exact .inr ⟨_, keyIndexOf_eq_some_iff.mp ‹_›, rfl⟩

theorem exec_ldVxK_cases (h : exec (.ldVxK x) s = .next t) :
    (∃ k, s.firstKey = some k ∧ t = s.setV x (BitVec.ofNat 8 k.val)) ∨
    (s.firstKey = none ∧ t = s.setPc (s.pc - 2)) := by
  change execLdVxK x s = _ at h
  unfold execLdVxK at h
  split at h <;> cases h
  · exact .inl ⟨_, ‹_›, rfl⟩
  · exact .inr ⟨‹_›, rfl⟩

theorem exec_ldBVx_cases (h : exec (.ldBVx x) s = .next t) :
    (∃ bad, outOfRange (s.eaI 0) 3 = some bad ∧ t = s.faultOf (.ldBVx x) .data (some bad)) ∨
    (outOfRange (s.eaI 0) 3 = none ∧ t = s.storeBytes (s.eaI 0) (bcdDigits (s.getV x))) := by
  change execLdBVx x s = _ at h
  unfold execLdBVx at h
  split at h <;> cases h
  · exact .inl ⟨_, ‹_›, rfl⟩
  · exact .inr ⟨‹_›, rfl⟩

theorem exec_ldMemVx_cases (h : exec (.ldMemVx x) s = .next t) :
    (∃ bad, outOfRange (s.eaI 0) (x.val + 1) = some bad ∧ t = s.faultOf (.ldMemVx x) .data (some bad)) ∨
    (outOfRange (s.eaI 0) (x.val + 1) = none ∧ t = s.storeBytes (s.eaI 0) (s.regsUpTo x)) := by
  change execLdMemVx x s = _ at h
  unfold execLdMemVx at h
  split at h <;> cases h
  · exact .inl ⟨_, ‹_›, rfl⟩
  · exact .inr ⟨‹_›, rfl⟩

theorem exec_ldVxMem_cases (h : exec (.ldVxMem x) s = .next t) :
    (∃ bad, outOfRange (s.eaI 0) (x.val + 1) = some bad ∧ t = s.faultOf (.ldVxMem x) .data (some bad)) ∨
    (outOfRange (s.eaI 0) (x.val + 1) = none ∧ t = s.loadRegsUpTo x) := by
  change execLdVxMem x s = _ at h
  unfold execLdVxMem at h
  split at h <;> cases h
  · exact .inl ⟨_, ‹_›, rfl⟩
  · exact .inr ⟨‹_›, rfl⟩

end ExecCases

/-! ## Frames: which parts an update writes -/

/-- The update from `s` to `t` writes only the listed parts. `UnchangedBut` compares memory by what it reads as;
the canonical form speaks of the list itself, so that is kept too where memory is not listed. -/
structure WritesOnly (parts : List Part) (s t : State) : Prop where
  unchanged : UnchangedBut parts s t
  mem_eq : Part.mem ∉ parts → t.mem = s.mem

section Frames

variable {parts : List Part} {s t u : State}

theorem UnchangedBut.mono {parts' : List Part} (h : UnchangedBut parts s t) (hsub : parts ⊆ parts') :
    UnchangedBut parts' s t :=
  fun p hp => h p fun hmem => hp (hsub hmem)

theorem WritesOnly.mono {parts' : List Part} (h : WritesOnly parts s t) (hsub : parts ⊆ parts') :
    WritesOnly parts' s t :=
  ⟨h.unchanged.mono hsub, fun hp => h.mem_eq fun hmem => hp (hsub hmem)⟩

theorem Part.same_trans {p : Part} (h : p.same s t) (h' : p.same t u) : p.same s u := by
  cases p
  case mem | V | keys => exact fun a => (h' a).trans (h a)
  all_goals exact Eq.trans h' h

theorem WritesOnly.refl (parts : List Part) (s : State) : WritesOnly parts s s :=
  ⟨fun p _ => by cases p <;> simp [Part.same], fun _ => rfl⟩

theorem WritesOnly.trans (h : WritesOnly parts s t) (h' : WritesOnly parts t u) : WritesOnly parts s u :=
  ⟨fun p hp => Part.same_trans (h.unchanged p hp) (h'.unchanged p hp),
    fun hp => (h'.mem_eq hp).trans (h.mem_eq hp)⟩

theorem WritesOnly.of_exec {i : Instr} (he : exec i s = .next u) (h : exec i s = .next t)
    (hw : WritesOnly parts s u) : WritesOnly parts s t :=
  eq_of_exec he h ▸ hw

end Frames

section UpdateFrames

variable (s : State)

theorem State.setV_writesOnly (x : Reg) (b : Byte) : WritesOnly [.V] s (s.setV x b) :=
  ⟨fun p hp => by cases p <;> simp_all [Part.same], fun _ => rfl⟩

theorem State.loadRegsUpTo_writesOnly (x : Reg) : WritesOnly [.V] s (s.loadRegsUpTo x) :=
  ⟨fun p hp => by cases p <;> simp_all [Part.same], fun _ => rfl⟩

theorem State.setI_writesOnly (w : Word) : WritesOnly [.I] s (s.setI w) :=
  ⟨fun p hp => by cases p <;> simp_all [Part.same], fun _ => rfl⟩

theorem State.setPc_writesOnly (w : Word) : WritesOnly [.pc] s (s.setPc w) :=
  ⟨fun p hp => by cases p <;> simp_all [Part.same], fun _ => rfl⟩

theorem State.setDT_writesOnly (b : Byte) : WritesOnly [.DT] s (s.setDT b) :=
  ⟨fun p hp => by cases p <;> simp_all [Part.same], fun _ => rfl⟩

theorem State.setST_writesOnly (b : Byte) : WritesOnly [.ST] s (s.setST b) :=
  ⟨fun p hp => by cases p <;> simp_all [Part.same], fun _ => rfl⟩

theorem State.setFb_writesOnly (f : Frame) : WritesOnly [.fb] s (s.setFb f) :=
  ⟨fun p hp => by cases p <;> simp_all [Part.same], fun _ => rfl⟩

theorem State.setSoundReq_writesOnly (b : Bool) : WritesOnly [.soundReq] s (s.setSoundReq b) :=
  ⟨fun p hp => by cases p <;> simp_all [Part.same], fun _ => rfl⟩

theorem State.setInbox_writesOnly (ops : List PortOp) : WritesOnly [.inbox] s (s.setInbox ops) :=
  ⟨fun p hp => by cases p <;> simp_all [Part.same], fun _ => rfl⟩

theorem State.setKey_writesOnly (k : Fin 16) (b : Bool) : WritesOnly [.keys] s (s.setKey k b) :=
  ⟨fun p hp => by cases p <;> simp_all [Part.same], fun _ => rfl⟩

theorem State.emit_writesOnly (o : PortOutput) : WritesOnly [.outputs] s (s.emit o) :=
  ⟨fun p hp => by cases p <;> simp_all [Part.same], fun _ => rfl⟩

theorem State.countDraw_writesOnly : WritesOnly [.draws] s s.countDraw :=
  ⟨fun p hp => by cases p <;> simp_all [Part.same], fun _ => rfl⟩

theorem State.storeBytes_writesOnly (base : Nat) (bs : List Byte) : WritesOnly [.mem] s (s.storeBytes base bs) :=
  ⟨fun p hp => by cases p <;> simp_all [Part.same], fun hp => absurd (by simp) hp⟩

theorem State.halt_writesOnly (kind : FaultKind) (pc : Word) (op : Option Word) (a : Option Nat) :
    WritesOnly [.status] s (s.halt kind pc op a) :=
  ⟨fun p hp => by cases p <;> simp_all [Part.same], fun _ => rfl⟩

theorem State.faultOf_writesOnly (i : Instr) (kind : FaultKind) (a : Option Nat) :
    WritesOnly [.status] s (s.faultOf i kind a) :=
  s.halt_writesOnly kind _ _ a

theorem State.advance_writesOnly : WritesOnly [.pc] s s.advance :=
  s.setPc_writesOnly _

theorem State.skipIf_writesOnly (c : Bool) : WritesOnly [.pc] s (s.skipIf c) :=
  s.skipIf_eq c ▸ s.setPc_writesOnly _

theorem State.writeResultFlag_writesOnly (x : Reg) (b : Byte) (f : Bool) :
    WritesOnly [.V] s (s.writeResultFlag x b f) :=
  (s.setV_writesOnly x b).trans (State.setV_writesOnly _ regF _)

variable {s}

theorem State.push_writesOnly {w : Word} {t : State} (h : s.push w = some t) : WritesOnly [.stack, .sp] s t := by
  obtain ⟨-, rfl⟩ := s.push_cases h
  exact ⟨fun p hp => by cases p <;> simp_all [Part.same, State.byteAt, State.getV, State.getKey], fun _ => rfl⟩

theorem State.pop_writesOnly {w : Word} {t : State} (h : s.pop = some (w, t)) : WritesOnly [.sp] s t := by
  obtain ⟨-, -, rfl⟩ := s.pop_cases h
  exact ⟨fun p hp => by cases p <;> simp_all [Part.same, State.byteAt, State.getV, State.getKey], fun _ => rfl⟩

end UpdateFrames

/-! ## Every instruction's frame -/

/-- Every instruction writes only the parts of its footprint (R81). -/
theorem exec_writesOnly {i : Instr} {s t : State} (h : exec i s = .next t) : WritesOnly (footprint i) s t := by
  cases i with
  | cls => exact .of_exec (exec_cls s) h (s.setFb_writesOnly _)
  | ret =>
    obtain ⟨-, rfl⟩ | ⟨w, u, hpop, rfl⟩ := exec_ret_cases h
    · exact (s.faultOf_writesOnly ..).mono (by simp [footprint])
    · exact ((State.pop_writesOnly hpop).mono (by simp [footprint])).trans
        ((u.setPc_writesOnly w).mono (by simp [footprint]))
  | jp nnn => exact .of_exec (exec_jp s nnn) h (s.setPc_writesOnly _)
  | call nnn =>
    obtain ⟨-, rfl⟩ | ⟨u, hpush, rfl⟩ := exec_call_cases h
    · exact (s.faultOf_writesOnly ..).mono (by simp [footprint])
    · exact ((State.push_writesOnly hpush).mono (by simp [footprint])).trans
        ((u.setPc_writesOnly _).mono (by simp [footprint]))
  | seImm x nn => exact .of_exec (exec_seImm s x nn) h (s.skipIf_writesOnly _)
  | sneImm x nn => exact .of_exec (exec_sneImm s x nn) h (s.skipIf_writesOnly _)
  | seReg x y => exact .of_exec (exec_seReg s x y) h (s.skipIf_writesOnly _)
  | ldImm x nn => exact .of_exec (exec_ldImm s x nn) h (s.setV_writesOnly x _)
  | addImm x nn => exact .of_exec (exec_addImm s x nn) h (s.setV_writesOnly x _)
  | ldReg x y => exact .of_exec (exec_ldReg s x y) h (s.setV_writesOnly x _)
  | orReg x y => exact .of_exec (exec_orReg s x y) h (s.setV_writesOnly x _)
  | andReg x y => exact .of_exec (exec_andReg s x y) h (s.setV_writesOnly x _)
  | xorReg x y => exact .of_exec (exec_xorReg s x y) h (s.setV_writesOnly x _)
  | addReg x y => exact .of_exec (exec_addReg s x y) h (s.writeResultFlag_writesOnly x _ _)
  | subReg x y => exact .of_exec (exec_subReg s x y) h (s.writeResultFlag_writesOnly x _ _)
  | shr x y => exact .of_exec (exec_shr s x y) h (s.writeResultFlag_writesOnly x _ _)
  | subnReg x y => exact .of_exec (exec_subnReg s x y) h (s.writeResultFlag_writesOnly x _ _)
  | shl x y => exact .of_exec (exec_shl s x y) h (s.writeResultFlag_writesOnly x _ _)
  | sneReg x y => exact .of_exec (exec_sneReg s x y) h (s.skipIf_writesOnly _)
  | ldI nnn => exact .of_exec (exec_ldI s nnn) h (s.setI_writesOnly _)
  | jpV0 nnn => exact .of_exec (exec_jpV0 s nnn) h (s.setPc_writesOnly _)
  | rnd x nn =>
    exact .of_exec (exec_rnd s x nn) h ((s.countDraw_writesOnly.mono (by simp [footprint])).trans
      ((s.countDraw.setV_writesOnly x _).mono (by simp [footprint])))
  | drw x y n =>
    obtain ⟨bad, -, rfl⟩ | ⟨-, c, -, rfl⟩ := exec_drw_cases h
    · exact (s.faultOf_writesOnly ..).mono (by simp [footprint])
    · exact ((s.setFb_writesOnly c.fb).mono (by simp [footprint])).trans
        ((State.setV_writesOnly _ regF _).mono (by simp [footprint]))
  | skp x =>
    obtain ⟨-, rfl⟩ | ⟨k, -, rfl⟩ := exec_skp_cases h
    · exact (s.faultOf_writesOnly ..).mono (by simp [footprint])
    · exact (s.skipIf_writesOnly _).mono (by simp [footprint])
  | sknp x =>
    obtain ⟨-, rfl⟩ | ⟨k, -, rfl⟩ := exec_sknp_cases h
    · exact (s.faultOf_writesOnly ..).mono (by simp [footprint])
    · exact (s.skipIf_writesOnly _).mono (by simp [footprint])
  | ldVxDt x => exact .of_exec (exec_ldVxDt s x) h (s.setV_writesOnly x _)
  | ldVxK x =>
    obtain ⟨k, -, rfl⟩ | ⟨-, rfl⟩ := exec_ldVxK_cases h
    · exact (s.setV_writesOnly x _).mono (by simp [footprint])
    · exact (s.setPc_writesOnly _).mono (by simp [footprint])
  | ldDtVx x => exact .of_exec (exec_ldDtVx s x) h (s.setDT_writesOnly _)
  | ldStVx x => exact .of_exec (exec_ldStVx s x) h (s.setST_writesOnly _)
  | addIVx x => exact .of_exec (exec_addIVx s x) h (s.setI_writesOnly _)
  | ldFVx x => exact .of_exec (exec_ldFVx s x) h (s.setI_writesOnly _)
  | ldBVx x =>
    obtain ⟨bad, -, rfl⟩ | ⟨-, rfl⟩ := exec_ldBVx_cases h
    · exact (s.faultOf_writesOnly ..).mono (by simp [footprint])
    · exact (s.storeBytes_writesOnly _ _).mono (by simp [footprint])
  | ldMemVx x =>
    obtain ⟨bad, -, rfl⟩ | ⟨-, rfl⟩ := exec_ldMemVx_cases h
    · exact (s.faultOf_writesOnly ..).mono (by simp [footprint])
    · exact (s.storeBytes_writesOnly _ _).mono (by simp [footprint])
  | ldVxMem x =>
    obtain ⟨bad, -, rfl⟩ | ⟨-, rfl⟩ := exec_ldVxMem_cases h
    · exact (s.faultOf_writesOnly ..).mono (by simp [footprint])
    · exact (s.loadRegsUpTo_writesOnly x).mono (by simp [footprint])
  | unknownOpcode op => exact .of_exec (exec_unknownOpcode s op) h (s.emit_writesOnly _)

/-- Settles O51: the frame of every instruction. -/
theorem instructionsStayInTheirFootprint : Obligations.InstructionsStayInTheirFootprint :=
  fun _ _ _ h => (exec_writesOnly h).unchanged

/-! ## Registers -/

theorem State.getV_writeResultFlag_other {s : State} {x r : Reg} {b : Byte} {f : Bool} (h : ¬(r = x ∨ r = regF)) :
    (s.writeResultFlag x b f).getV r = s.getV r := by
  obtain ⟨hx, hF⟩ := not_or.mp h
  rw [State.getV_writeResultFlag, if_neg hF, if_neg hx]

/-- An instruction leaves alone every register that is not its destination and, where it writes the flag, not VF (R23):
only the instructions with V in their footprint need a look at which register they write. -/
theorem exec_getV {i : Instr} {s t : State} {r : Reg} (h : exec i s = .next t) (hr : ¬MayWriteReg r i) :
    t.getV r = s.getV r := by
  by_cases hV : Part.V ∈ footprint i
  case neg => exact (exec_writesOnly h).unchanged .V hV r
  cases i <;> simp only [footprint, List.mem_cons, List.not_mem_nil, reduceCtorEq, or_false] at hV
  case ldImm x nn => rw [eq_of_exec (exec_ldImm s x nn) h, State.getV_setV_other _ _ hr]
  case addImm x nn => rw [eq_of_exec (exec_addImm s x nn) h, State.getV_setV_other _ _ hr]
  case ldReg x y => rw [eq_of_exec (exec_ldReg s x y) h, State.getV_setV_other _ _ hr]
  case orReg x y => rw [eq_of_exec (exec_orReg s x y) h, State.getV_setV_other _ _ hr]
  case andReg x y => rw [eq_of_exec (exec_andReg s x y) h, State.getV_setV_other _ _ hr]
  case xorReg x y => rw [eq_of_exec (exec_xorReg s x y) h, State.getV_setV_other _ _ hr]
  case ldVxDt x => rw [eq_of_exec (exec_ldVxDt s x) h, State.getV_setV_other _ _ hr]
  case rnd x nn => rw [eq_of_exec (exec_rnd s x nn) h, State.getV_setV_other _ _ hr, State.countDraw_getV]
  case addReg x y => rw [eq_of_exec (exec_addReg s x y) h, State.getV_writeResultFlag_other hr]
  case subReg x y => rw [eq_of_exec (exec_subReg s x y) h, State.getV_writeResultFlag_other hr]
  case subnReg x y => rw [eq_of_exec (exec_subnReg s x y) h, State.getV_writeResultFlag_other hr]
  case shr x y => rw [eq_of_exec (exec_shr s x y) h, State.getV_writeResultFlag_other hr]
  case shl x y => rw [eq_of_exec (exec_shl s x y) h, State.getV_writeResultFlag_other hr]
  case drw x y n =>
    obtain ⟨bad, -, rfl⟩ | ⟨-, c, -, rfl⟩ := exec_drw_cases h
    · rfl
    · exact State.getV_setV_other _ _ hr
  case ldVxK x =>
    obtain ⟨k, -, rfl⟩ | ⟨-, rfl⟩ := exec_ldVxK_cases h
    · exact State.getV_setV_other _ _ hr
    · rfl
  case ldVxMem x =>
    obtain ⟨bad, -, rfl⟩ | ⟨-, rfl⟩ := exec_ldVxMem_cases h
    · rfl
    · exact (s.getV_loadRegsUpTo x r).trans (if_neg hr)

/-- Settles O52: by the frame, and register by register where V is written. -/
theorem registersChangeOnlyAsDestinations : Obligations.RegistersChangeOnlyAsDestinations :=
  fun _ _ _ _ h hr => exec_getV h hr

/-! ## The frame of every operation of the host -/

section HostFrames

variable {s t : State}

/-- The parts an operation of the host may write, the list of coming operations apart (R36, R80, R205, R210, R214, R230,
R232): a cycle what any instruction or the fetch may write, a reset every element of the spec's state. -/
def portFootprint : PortOp → List Part
  | .cycle => [.mem, .V, .I, .pc, .stack, .sp, .fb, .DT, .ST, .status, .draws, .outputs]
  | .tick => [.DT, .ST, .soundReq]
  | .key _ _ => [.keys, .outputs]
  | .load _ => [.mem, .outputs]
  | .reset => [.mem, .V, .I, .pc, .stack, .sp, .fb, .keys, .DT, .ST, .status, .soundReq]
  | .readDisplay => [.outputs]

theorem footprint_subset_cycle (i : Instr) : footprint i ⊆ portFootprint .cycle := by
  cases i <;> simp [footprint, portFootprint]

theorem opCycle_writesOnly (h : opCycle s = .next t) : WritesOnly (portFootprint .cycle) s t := by
  obtain ⟨-, rfl⟩ | ⟨-, bad, -, rfl⟩ | ⟨-, -, hexec⟩ := opCycle_cases h
  · exact .refl _ _
  · exact (s.halt_writesOnly ..).mono (by simp [portFootprint])
  · exact (s.advance_writesOnly.mono (by simp [portFootprint])).trans
      ((exec_writesOnly hexec).mono (footprint_subset_cycle _))

theorem opTick_writesOnly (s : State) : WritesOnly [.DT, .ST, .soundReq] s (opTick s) := by
  cases hs : s.status with
  | halted f =>
    rw [opTick_halted hs]
    exact (s.setSoundReq_writesOnly false).mono (by simp)
  | running =>
    rw [opTick_running hs]
    exact (((s.setDT_writesOnly _).mono (by simp)).trans ((State.setST_writesOnly _ _).mono (by simp))).trans
      ((State.setSoundReq_writesOnly _ _).mono (by simp))

theorem opKey_writesOnly (s : State) (index : Int) (pressed : Bool) :
    WritesOnly [.keys, .outputs] s (opKey index pressed s) := by
  cases hk : keyOfIndex index with
  | none =>
    rw [opKey_unnamed (keyOfIndex_eq_none_iff.mp hk)]
    exact (s.emit_writesOnly _).mono (by simp)
  | some k =>
    rw [keyOfIndex_eq_some_iff.mp hk, opKey_named]
    exact ((s.setKey_writesOnly k pressed).mono (by simp)).trans ((State.emit_writesOnly _ _).mono (by simp))

theorem opLoad_writesOnly (s : State) (bytes : List Byte) : WritesOnly [.mem, .outputs] s (opLoad bytes s) := by
  obtain h | h := opLoad_cases s bytes <;> rw [h]
  · exact ((s.storeBytes_writesOnly _ _).mono (by simp)).trans ((State.emit_writesOnly _ _).mono (by simp))
  · exact (s.emit_writesOnly _).mono (by simp)

theorem opReadDisplay_writesOnly (s : State) : WritesOnly [.outputs] s (opReadDisplay s) :=
  s.emit_writesOnly _

theorem opReset_writesOnly (s : State) : WritesOnly (portFootprint .reset) s (opReset s) :=
  ⟨fun p hp => by cases p <;> simp_all [Part.same, portFootprint], fun hp => absurd (by simp [portFootprint]) hp⟩

/-- Every operation of the host writes only the parts of its footprint. -/
theorem runPort_writesOnly {op : PortOp} (h : runPort op s = .next t) : WritesOnly (portFootprint op) s t := by
  cases op with
  | cycle => exact opCycle_writesOnly h
  | tick => exact Host.Outcome.next.inj h ▸ opTick_writesOnly s
  | key index pressed => exact Host.Outcome.next.inj h ▸ opKey_writesOnly s index pressed
  | load bytes => exact Host.Outcome.next.inj h ▸ opLoad_writesOnly s bytes
  | reset => exact Host.Outcome.next.inj h ▸ opReset_writesOnly s
  | readDisplay => exact Host.Outcome.next.inj h ▸ opReadDisplay_writesOnly s

/-- Everything a step can do: it takes one operation from the list and performs it, an op_cycle when none is listed. -/
theorem step_runPort_cases (h : step s = .next t) :
    ∃ op, (op = .cycle → s.CycleNext) ∧ (op ≠ .cycle → ∃ rest, s.inbox = op :: rest) ∧
      runPort op (s.setInbox s.inbox.tail) = .next t := by
  obtain ⟨hnil, -⟩ | ⟨op, rest, hin, hrun⟩ := step_cases h
  · exact ⟨.cycle, fun _ => .inl hnil, absurd rfl, (step_of_cycleNext (.inl hnil)).symm.trans h⟩
  · exact ⟨op, fun hop => .inr ⟨rest, hop ▸ hin⟩, fun _ => ⟨rest, hin⟩, by rw [hin]; exact hrun⟩

/-- A step keeps every part, the list of coming operations apart, that its operation may not write. -/
theorem step_same {op : PortOp} {p : Part} (h : runPort op (s.setInbox s.inbox.tail) = .next t)
    (hbox : p ≠ .inbox) (hp : p ∉ portFootprint op) : p.same s t :=
  Part.same_trans ((s.setInbox_writesOnly _).unchanged p (by simpa using hbox)) ((runPort_writesOnly h).unchanged p hp)

end HostFrames

/-- Settles O55: no operation of the host, and so no step, has the font table in its footprint. -/
theorem fontTableNeverChanges : Obligations.FontTableNeverChanges := by
  intro s t h
  obtain ⟨op, -, -, hrun⟩ := step_runPort_cases h
  exact step_same (p := .font) hrun (by decide) (by cases op <;> simp [portFootprint])

/-! ## The sound output and the random input -/

theorem soundReq_mem_portFootprint {op : PortOp} (h : Part.soundReq ∈ portFootprint op) : op = .tick ∨ op = .reset := by
  cases op <;> simp_all [portFootprint]

theorem draws_mem_portFootprint {op : PortOp} (h : Part.draws ∈ portFootprint op) : op = .cycle := by
  cases op <;> simp_all [portFootprint]

theorem draws_mem_footprint {i : Instr} (h : Part.draws ∈ footprint i) : ∃ x nn, i = .rnd x nn := by
  cases i <;> simp_all [footprint]

/-- An instruction that draws is a CXNN, and it draws once (R132). -/
theorem exec_draws_ne {i : Instr} {s t : State} (h : exec i s = .next t) (hne : t.draws ≠ s.draws) :
    (∃ x nn, i = .rnd x nn) ∧ t.draws = s.draws + 1 := by
  have hmem : Part.draws ∈ footprint i := by
    by_contra hnot
    exact hne ((exec_writesOnly h).unchanged .draws hnot)
  obtain ⟨x, nn, rfl⟩ := draws_mem_footprint hmem
  exact ⟨⟨x, nn, rfl⟩, eq_of_exec (exec_rnd s x nn) h ▸ rfl⟩

/-- A cycle that draws runs a CXNN that it has fetched in range, and draws once (R41, R80). -/
theorem opCycle_draws_ne {s t : State} (h : opCycle s = .next t) (hne : t.draws ≠ s.draws) :
    s.status = .running ∧ s.pc.toNat + 1 < 4096 ∧ (∃ x nn, decode s.fetchWord = .rnd x nn) ∧
      t.draws = s.draws + 1 := by
  obtain ⟨-, rfl⟩ | ⟨-, bad, -, rfl⟩ | ⟨hrun, hfetch, hexec⟩ := opCycle_cases h
  · exact absurd rfl hne
  · exact absurd rfl hne
  · exact ⟨hrun, State.fetchFault_eq_none_iff.mp hfetch, exec_draws_ne (s := s.advance) hexec hne⟩

/-- Settles O54: of the host's operations only a tick and a reset have the sound output in their footprint. -/
theorem soundChangesOnlyAtTickOrReset : Obligations.SoundChangesOnlyAtTickOrReset := by
  intro s t h hne
  obtain ⟨op, -, hlisted, hrun⟩ := step_runPort_cases h
  have hmem : Part.soundReq ∈ portFootprint op := by
    by_contra hnot
    exact hne (step_same (p := .soundReq) hrun (by decide) hnot)
  obtain rfl | rfl := soundReq_mem_portFootprint hmem
  · obtain ⟨rest, hin⟩ := hlisted (by decide)
    exact ⟨rest, .inl hin⟩
  · obtain ⟨rest, hin⟩ := hlisted (by decide)
    exact ⟨rest, .inr hin⟩

/-- Settles O53: of the host's operations only a cycle draws, and of the instructions only a CXNN. -/
theorem onlyRandomInstructionsDraw : Obligations.OnlyRandomInstructionsDraw := by
  intro s t h hne
  obtain ⟨op, hcycle, -, hrun⟩ := step_runPort_cases h
  have hmem : Part.draws ∈ portFootprint op := by
    by_contra hnot
    exact hne (step_same (p := .draws) hrun (by decide) hnot)
  obtain rfl := draws_mem_portFootprint hmem
  exact ⟨hcycle rfl, opCycle_draws_ne (s := s.setInbox s.inbox.tail) hrun hne⟩

/-! ## Fault records (R204) -/

theorem FaultInfo.wf_data {base n bad : Nat} (h : outOfRange base n = some bad) (pc op : Word) :
    FaultInfo.wf ⟨FaultKind.data.code, .data, pc, some op, some bad⟩ = true := by
  obtain ⟨hbad, -⟩ := outOfRange_some h
  simpa [FaultInfo.wf] using hbad

theorem FaultInfo.wf_fetch {pc : Word} {bad : Nat} (h : 4096 ≤ bad) :
    FaultInfo.wf ⟨FaultKind.fetch.code, .fetch, pc, none, some bad⟩ = true := by
  simpa [FaultInfo.wf] using h

theorem FaultInfo.wf_keyIndex {pc : Word} {op : Word} {b : Byte} (h : 16 ≤ b.toNat) :
    FaultInfo.wf ⟨FaultKind.keyIndex.code, .keyIndex, pc, some op, some b.toNat⟩ = true := by
  have hlt : b.toNat < 256 := b.isLt
  simpa [FaultInfo.wf, hlt] using h

/-- A fetch that fails its check records an address at or above 4096. -/
theorem State.fetchFault_some {s : State} {bad : Nat} (h : s.fetchFault = some bad) : 4096 ≤ bad := by
  simp only [State.fetchFault, Config.memSize] at h
  split at h
  · injection h; omega
  · cases h

/-- An instruction leaves status alone or takes one fault, with a record as R204 describes it. -/
theorem exec_status_cases {i : Instr} {s t : State} (h : exec i s = .next t) :
    t.status = s.status ∨
    ∃ kind addr, t = s.faultOf i kind addr ∧
      FaultInfo.wf ⟨kind.code, kind, s.instrAddr, some (encode i), addr⟩ = true := by
  by_cases hst : Part.status ∈ footprint i
  case neg => exact .inl ((exec_writesOnly h).unchanged .status hst)
  cases i <;> simp only [footprint, List.mem_cons, List.not_mem_nil, reduceCtorEq, or_false] at hst
  case ret =>
    obtain ⟨-, rfl⟩ | ⟨w, u, hpop, rfl⟩ := exec_ret_cases h
    · exact .inr ⟨_, _, rfl, rfl⟩
    · exact .inl ((State.pop_writesOnly hpop).unchanged .status (by simp))
  case call nnn =>
    obtain ⟨-, rfl⟩ | ⟨u, hpush, rfl⟩ := exec_call_cases h
    · exact .inr ⟨_, _, rfl, rfl⟩
    · exact .inl ((State.push_writesOnly hpush).unchanged .status (by simp))
  case drw x y n =>
    obtain ⟨bad, hbad, rfl⟩ | ⟨-, c, -, rfl⟩ := exec_drw_cases h
    · exact .inr ⟨_, _, rfl, FaultInfo.wf_data hbad _ _⟩
    · exact .inl rfl
  case skp x =>
    obtain ⟨hx, rfl⟩ | ⟨k, -, rfl⟩ := exec_skp_cases h
    · exact .inr ⟨_, _, rfl, FaultInfo.wf_keyIndex hx⟩
    · exact .inl ((s.skipIf_writesOnly _).unchanged .status (by simp))
  case sknp x =>
    obtain ⟨hx, rfl⟩ | ⟨k, -, rfl⟩ := exec_sknp_cases h
    · exact .inr ⟨_, _, rfl, FaultInfo.wf_keyIndex hx⟩
    · exact .inl ((s.skipIf_writesOnly _).unchanged .status (by simp))
  case ldBVx x =>
    obtain ⟨bad, hbad, rfl⟩ | ⟨-, rfl⟩ := exec_ldBVx_cases h
    · exact .inr ⟨_, _, rfl, FaultInfo.wf_data hbad _ _⟩
    · exact .inl rfl
  case ldMemVx x =>
    obtain ⟨bad, hbad, rfl⟩ | ⟨-, rfl⟩ := exec_ldMemVx_cases h
    · exact .inr ⟨_, _, rfl, FaultInfo.wf_data hbad _ _⟩
    · exact .inl rfl
  case ldVxMem x =>
    obtain ⟨bad, hbad, rfl⟩ | ⟨-, rfl⟩ := exec_ldVxMem_cases h
    · exact .inr ⟨_, _, rfl, FaultInfo.wf_data hbad _ _⟩
    · exact .inl rfl

/-! ## The invariant, part by part -/

section ExecInvariant

variable {i : Instr} {s t : State}

theorem exec_status_wf (hs : s.status.wf = true) (h : exec i s = .next t) : t.status.wf = true := by
  obtain hst | ⟨kind, addr, rfl, hwf⟩ := exec_status_cases h
  · rwa [hst]
  · exact hwf

/-- Memory's canonical form: only the two stores write memory. -/
theorem exec_mem_wf (hs : s.mem.wf s.font = true) (h : exec i s = .next t) : t.mem.wf t.font = true := by
  by_cases hmem : Part.mem ∈ footprint i
  case neg =>
    have hw := exec_writesOnly h
    rw [hw.mem_eq hmem, show t.font = s.font from hw.unchanged .font (by cases i <;> simp [footprint])]
    exact hs
  cases i <;> simp only [footprint, List.mem_cons, List.not_mem_nil, reduceCtorEq, or_false] at hmem
  case ldBVx x =>
    obtain ⟨bad, -, rfl⟩ | ⟨-, rfl⟩ := exec_ldBVx_cases h
    · exact hs
    · exact State.wf_storeBytes hs _ _
  case ldMemVx x =>
    obtain ⟨bad, -, rfl⟩ | ⟨-, rfl⟩ := exec_ldMemVx_cases h
    · exact hs
    · exact State.wf_storeBytes hs _ _

/-- Stack entries: only a call writes one, the return address (R102). -/
theorem exec_stack_le {b : Nat} (hpc : s.pc.toNat ≤ b) (hs : ∀ k : Fin 16, (s.stack.get k).toNat ≤ b)
    (h : exec i s = .next t) (k : Fin 16) : (t.stack.get k).toNat ≤ b := by
  by_cases hstack : Part.stack ∈ footprint i
  case neg => exact (show t.stack = s.stack from (exec_writesOnly h).unchanged .stack hstack) ▸ hs k
  cases i <;> simp only [footprint, List.mem_cons, List.not_mem_nil, reduceCtorEq, or_false] at hstack
  case call nnn =>
    obtain ⟨-, rfl⟩ | ⟨u, hpush, rfl⟩ := exec_call_cases h
    · exact hs k
    · obtain ⟨hlt, rfl⟩ := s.push_cases hpush
      by_cases hk : s.sp.val = k.val
      · simpa [Vector.get_eq_getElem, hk] using hpc
      · simpa [Vector.get_eq_getElem, hk] using hs k

theorem State.skipIf_pc_le {b : Nat} (hpc : s.pc.toNat + 2 ≤ b) (c : Bool) : (s.skipIf c).pc.toNat ≤ b := by
  rw [s.skipIf_eq, State.setPc_pc]
  split
  · bv_omega
  · omega

theorem zextAddr_toNat_le (nnn : Addr) : (zextAddr nnn).toNat ≤ 0xFFF := by
  have := nnn.isLt
  simp only [zextAddr, BitVec.toNat_setWidth]; omega

theorem zext16_add_zextAddr_toNat_le (b : Byte) (nnn : Addr) : (zext16 b + zextAddr nnn).toNat ≤ 0x10FE := by
  have hb : b.toNat < 256 := b.isLt
  have hn : nnn.toNat < 4096 := nnn.isLt
  simp only [zext16, zextAddr, BitVec.toNat_add, BitVec.toNat_setWidth]; omega

/-- The program counter after an instruction that a fetch has left (R25): the highest is BNNN's 0xFF + 0xFFF. -/
theorem exec_pc_le (hlow : 2 ≤ s.pc.toNat) (hpc : s.pc.toNat ≤ 0x1000)
    (hs : ∀ k : Fin 16, (s.stack.get k).toNat ≤ 0x1000) (h : exec i s = .next t) : t.pc.toNat ≤ 0x10FE := by
  by_cases hmem : Part.pc ∈ footprint i
  case neg => rw [show t.pc = s.pc from (exec_writesOnly h).unchanged .pc hmem]; omega
  cases i <;> simp only [footprint, List.mem_cons, List.not_mem_nil, reduceCtorEq, or_false] at hmem
  case ret =>
    obtain ⟨-, rfl⟩ | ⟨w, u, hpop, rfl⟩ := exec_ret_cases h
    · exact hpc.trans (by decide)
    · obtain ⟨hlt, rfl, -⟩ := s.pop_cases hpop
      exact (hs _).trans (by decide)
  case jp nnn =>
    rw [eq_of_exec (exec_jp s nnn) h]
    exact (zextAddr_toNat_le nnn).trans (by decide)
  case call nnn =>
    obtain ⟨-, rfl⟩ | ⟨u, -, rfl⟩ := exec_call_cases h
    · exact hpc.trans (by decide)
    · exact (zextAddr_toNat_le nnn).trans (by decide)
  case jpV0 nnn =>
    rw [eq_of_exec (exec_jpV0 s nnn) h]
    exact zext16_add_zextAddr_toNat_le _ _
  case seImm x nn => exact eq_of_exec (exec_seImm s x nn) h ▸ State.skipIf_pc_le (by omega) _
  case sneImm x nn => exact eq_of_exec (exec_sneImm s x nn) h ▸ State.skipIf_pc_le (by omega) _
  case seReg x y => exact eq_of_exec (exec_seReg s x y) h ▸ State.skipIf_pc_le (by omega) _
  case sneReg x y => exact eq_of_exec (exec_sneReg s x y) h ▸ State.skipIf_pc_le (by omega) _
  case skp x =>
    obtain ⟨-, rfl⟩ | ⟨k, -, rfl⟩ := exec_skp_cases h
    · exact hpc.trans (by decide)
    · exact State.skipIf_pc_le (by omega) _
  case sknp x =>
    obtain ⟨-, rfl⟩ | ⟨k, -, rfl⟩ := exec_sknp_cases h
    · exact hpc.trans (by decide)
    · exact State.skipIf_pc_le (by omega) _
  case ldVxK x =>
    obtain ⟨k, -, rfl⟩ | ⟨-, rfl⟩ := exec_ldVxK_cases h
    · exact hpc.trans (by decide)
    · have hsub : (s.pc - 2).toNat = s.pc.toNat - 2 := BitVec.toNat_sub_of_le (by simpa [BitVec.le_def] using hlow)
      rw [State.setPc_pc, hsub]; omega

/-- An instruction that a fetch in range has left, so with pc in 2..0x1000 (R56), keeps the invariant. -/
theorem exec_inv (hs : MachineInv s) (hlow : 2 ≤ s.pc.toNat) (hhigh : s.pc.toNat ≤ 0x1000)
    (h : exec i s = .next t) : MachineInv t := by
  obtain ⟨hmem, -, hstack, hstatus⟩ := hs
  exact ⟨exec_mem_wf hmem h, exec_pc_le hlow hhigh hstack h, exec_stack_le hhigh hstack h, exec_status_wf hstatus h⟩

end ExecInvariant

/-! ## The invariant over the host's operations -/

section PortInvariant

variable {s t : State}

/-- What writes none of the parts that the invariant speaks of keeps the invariant. -/
theorem MachineInv.of_writesOnly {parts : List Part} (hs : MachineInv s) (hw : WritesOnly parts s t)
    (hparts : ∀ p ∈ [Part.font, .mem, .pc, .stack, .status], p ∉ parts) : MachineInv t := by
  have hfont : t.font = s.font := hw.unchanged .font (hparts _ (by simp))
  have hmem : t.mem = s.mem := hw.mem_eq (hparts _ (by simp))
  have hpc : t.pc = s.pc := hw.unchanged .pc (hparts _ (by simp))
  have hstack : t.stack = s.stack := hw.unchanged .stack (hparts _ (by simp))
  have hstatus : t.status = s.status := hw.unchanged .status (hparts _ (by simp))
  unfold MachineInv
  rwa [hfont, hmem, hpc, hstack, hstatus]

theorem resetWith_inv (font : Config.FontSet) : MachineInv (State.resetWith font) :=
  ⟨rfl, by simp, fun k => by simp [Vector.get_eq_getElem], rfl⟩

theorem opReset_inv (s : State) : MachineInv (opReset s) :=
  ⟨opReset_wf s, by simp, fun k => by simp [Vector.get_eq_getElem], rfl⟩

theorem opLoad_inv (hs : MachineInv s) (bytes : List Byte) : MachineInv (opLoad bytes s) := by
  obtain ⟨hmem, hpc, hstack, hstatus⟩ := hs
  refine ⟨opLoad_wf hmem bytes, ?_⟩
  obtain h | h := opLoad_cases s bytes <;> rw [h] <;> exact ⟨hpc, hstack, hstatus⟩

theorem opCycle_inv (hs : MachineInv s) (h : opCycle s = .next t) : MachineInv t := by
  obtain ⟨-, rfl⟩ | ⟨-, bad, hbad, rfl⟩ | ⟨-, hfetch, hexec⟩ := opCycle_cases h
  · exact hs
  · obtain ⟨hmem, hpc, hstack, -⟩ := hs
    exact ⟨hmem, hpc, hstack, FaultInfo.wf_fetch (State.fetchFault_some hbad)⟩
  · obtain ⟨hmem, -, hstack, hstatus⟩ := hs
    have hin : s.pc.toNat + 1 < 4096 := State.fetchFault_eq_none_iff.mp hfetch
    have hpc : s.advance.pc.toNat = s.pc.toNat + 2 := by rw [State.advance_pc]; bv_omega
    have hadv : MachineInv s.advance := ⟨hmem, by omega, hstack, hstatus⟩
    exact exec_inv hadv (by omega) (by omega) hexec

/-- Every operation of the host keeps the invariant. -/
theorem runPort_inv {op : PortOp} (hs : MachineInv s) (h : runPort op s = .next t) : MachineInv t := by
  cases op with
  | cycle => exact opCycle_inv hs h
  | load bytes => exact Host.Outcome.next.inj h ▸ opLoad_inv hs bytes
  | reset => exact Host.Outcome.next.inj h ▸ opReset_inv s
  | tick => exact hs.of_writesOnly (runPort_writesOnly h) (by simp [portFootprint])
  | key index pressed => exact hs.of_writesOnly (runPort_writesOnly h) (by simp [portFootprint])
  | readDisplay => exact hs.of_writesOnly (runPort_writesOnly h) (by simp [portFootprint])

end PortInvariant

/-- Settles O56: nothing is listed in memory, pc is 0x200, the stack is zero and the engine runs. -/
theorem resetMeetsTheInvariant : Obligations.ResetMeetsTheInvariant :=
  resetWith_inv

/-- Settles O57: taking an operation from the list keeps the invariant, and so does every operation. -/
theorem everyStepKeepsTheInvariant : Obligations.EveryStepKeepsTheInvariant := by
  intro s t hs h
  obtain ⟨op, -, -, hrun⟩ := step_runPort_cases h
  exact runPort_inv (hs.of_writesOnly (s.setInbox_writesOnly _) (by simp)) hrun

/-! ## Reset and the display port -/

/-- Settles O16: memory's bytes by `byteAt_resetWith`, every other element read off the reset state. -/
theorem resetStateHoldsTheSpecValues : Obligations.ResetStateHoldsTheSpecValues := by
  refine ⟨rfl, fun font => ⟨fun a ha => ?_, fun a hlow _ => ?_, fun r => ?_, rfl, rfl, fun k => ?_, rfl, fun k => ?_,
    fun k => ?_, rfl, rfl, rfl, rfl⟩⟩
  · rw [State.byteAt_resetWith, dif_pos ha]
  · rw [State.byteAt_resetWith, dif_neg (by omega)]
  · simp [State.getV, Vector.get_eq_getElem]
  · simp [Vector.get_eq_getElem]
  · exact Frame.cell_clear k
  · simp [State.getKey, Vector.get_eq_getElem]

@[simp] theorem Frame.length_toList (f : Frame) : f.toList.length = 2048 := by
  simp [Frame.toList]

theorem Frame.getElem?_toList (f : Frame) {k : Nat} (hk : k < 2048) : f.toList[k]? = some (f.cell k) := by
  simp [Frame.toList, hk]

/-- On the screen a pixel's cell is row-major (R28). -/
theorem cellIndex_eq {x y : Nat} (hx : x < 64) (hy : y < 32) : cellIndex x y = y * 64 + x := by
  simp only [cellIndex, Config.fbHeight, Config.fbWidth]; omega

/-- Settles O18: the sequence lists the cells in order, and the read emits the framebuffer. -/
theorem displayReadIsRowMajor : Obligations.DisplayReadIsRowMajor := by
  refine ⟨fun s => ⟨s.fb.length_toList, fun x y hx hy => ?_⟩, fun s rest hin => ?_⟩
  · rw [Frame.getElem?_toList s.fb (by omega), State.pixel, cellIndex_eq hx hy]
  · have hw : WritesOnly [.outputs, .inbox] s (opReadDisplay (s.setInbox rest)) :=
      ((s.setInbox_writesOnly rest).mono (by simp)).trans ((opReadDisplay_writesOnly _).mono (by simp))
    exact ⟨_, step_of_inbox_cons hin, rfl, hw.unchanged, rfl⟩

end Sys2Proof.Machine

namespace Sys2Proof

/-! ## A word and its fields (R71, R72): the fields of a built word, and a word rebuilt from its fields -/

section FieldsOfWords

variable (n1 last : BitVec 4) (x y : Reg) (low : Byte) (nnn : Addr)

@[simp] theorem majorOf_wordA : majorOf (wordA n1 nnn) = n1 :=
  BitVec.extractLsb'_append_eq_left

@[simp] theorem fieldNNN_wordA : fieldNNN (wordA n1 nnn) = nnn :=
  BitVec.extractLsb'_append_eq_right

@[simp] theorem majorOf_wordXB : majorOf (wordXB n1 x low) = n1 :=
  (BitVec.extractLsb'_append_eq_of_le (by decide)).trans BitVec.extractLsb'_append_eq_left

@[simp] theorem fieldX_wordXB : fieldX (wordXB n1 x low) = x :=
  congrArg BitVec.toFin
    ((BitVec.extractLsb'_append_eq_of_le (by decide)).trans BitVec.extractLsb'_append_eq_right)

@[simp] theorem fieldNN_wordXB : fieldNN (wordXB n1 x low) = low :=
  BitVec.extractLsb'_append_eq_right

@[simp] theorem majorOf_wordXY : majorOf (wordXY n1 x y last) = n1 :=
  (BitVec.extractLsb'_append_eq_of_le (by decide)).trans
    ((BitVec.extractLsb'_append_eq_of_le (by decide)).trans BitVec.extractLsb'_append_eq_left)

@[simp] theorem fieldX_wordXY : fieldX (wordXY n1 x y last) = x :=
  congrArg BitVec.toFin ((BitVec.extractLsb'_append_eq_of_le (by decide)).trans
    ((BitVec.extractLsb'_append_eq_of_le (by decide)).trans BitVec.extractLsb'_append_eq_right))

@[simp] theorem fieldY_wordXY : fieldY (wordXY n1 x y last) = y :=
  congrArg BitVec.toFin
    ((BitVec.extractLsb'_append_eq_of_le (by decide)).trans BitVec.extractLsb'_append_eq_right)

@[simp] theorem functionNibble_wordXY : functionNibble (wordXY n1 x y last) = last :=
  BitVec.extractLsb'_append_eq_right

@[simp] theorem fieldN_wordXY : fieldN (wordXY n1 x y last) = last.toFin :=
  congrArg BitVec.toFin BitVec.extractLsb'_append_eq_right

end FieldsOfWords

section WordsOfFields

variable {op : Word} {n1 last : BitVec 4} {low : Byte}

theorem majorOf_append_fieldX (op : Word) :
    majorOf op ++ BitVec.ofFin (w := 4) (fieldX op) = op.extractLsb' 8 8 :=
  BitVec.extractLsb'_append_extractLsb'_eq_extractLsb' (by decide)

theorem wordA_of_fields (h1 : (majorOf op).toNat = n1.toNat) : wordA n1 (fieldNNN op) = op := by
  rw [← BitVec.eq_of_toNat_eq h1]
  exact BitVec.extractLsb'_append_extractLsb' (w := 4) (len := 12)

theorem wordXB_of_fields (h1 : (majorOf op).toNat = n1.toNat) (hlow : (fieldNN op).toNat = low.toNat) :
    wordXB n1 (fieldX op) low = op := by
  rw [← BitVec.eq_of_toNat_eq h1, ← BitVec.eq_of_toNat_eq hlow]
  rw [wordXB, majorOf_append_fieldX]
  exact BitVec.extractLsb'_append_extractLsb' (w := 8) (len := 8)

theorem wordXY_of_fields (h1 : (majorOf op).toNat = n1.toNat) (h4 : (functionNibble op).toNat = last.toNat) :
    wordXY n1 (fieldX op) (fieldY op) last = op := by
  rw [← BitVec.eq_of_toNat_eq h1, ← BitVec.eq_of_toNat_eq h4]
  have mid : op.extractLsb' 8 8 ++ BitVec.ofFin (w := 4) (fieldY op) = op.extractLsb' 4 12 :=
    BitVec.extractLsb'_append_extractLsb'_eq_extractLsb' (by decide)
  rw [wordXY, majorOf_append_fieldX, mid]
  exact BitVec.extractLsb'_append_extractLsb' (w := 12) (len := 4)

end WordsOfFields

/-! ## Encoding what a word decodes to (R73, R76-R78) -/

section EncodeDecode

variable {op : Word}

theorem encode_decodeAlu (h1 : (majorOf op).toNat = 8) : encode (decodeAlu op) = op := by
  unfold decodeAlu
  split
  case h_10 => rfl
  all_goals exact wordXY_of_fields h1 ‹_›

theorem encode_decodeMisc (h1 : (majorOf op).toNat = 15) : encode (decodeMisc op) = op := by
  unfold decodeMisc
  split
  case h_10 => rfl
  all_goals exact wordXB_of_fields h1 ‹_›

/-- Decoding drops no bit: every branch keeps the word's major opcode, its operands and its fixed low nibbles. -/
theorem encode_decode (op : Word) : encode (decode op) = op := by
  unfold decode
  split
  next =>
    split
    · exact Eq.symm ‹_›
    split
    · exact Eq.symm ‹_›
    · rfl
  next h1 => exact wordA_of_fields h1
  next h1 => exact wordA_of_fields h1
  next h1 => exact wordXB_of_fields h1 rfl
  next h1 => exact wordXB_of_fields h1 rfl
  next h1 =>
    split
    next h4 => exact wordXY_of_fields h1 (congrArg BitVec.toNat h4)
    next => rfl
  next h1 => exact wordXB_of_fields h1 rfl
  next h1 => exact wordXB_of_fields h1 rfl
  next h1 => exact encode_decodeAlu h1
  next h1 =>
    split
    next h4 => exact wordXY_of_fields h1 (congrArg BitVec.toNat h4)
    next => rfl
  next h1 => exact wordA_of_fields h1
  next h1 => exact wordA_of_fields h1
  next h1 => exact wordXB_of_fields h1 rfl
  next h1 => exact wordXY_of_fields h1 rfl
  next h1 =>
    split
    next hlow => exact wordXB_of_fields h1 (congrArg BitVec.toNat hlow)
    split
    next hlow => exact wordXB_of_fields h1 (congrArg BitVec.toNat hlow)
    next => rfl
  next =>
    have h1 : (majorOf op).toNat = 15 := by
      have hlt := (majorOf op).isLt
      simp only [imp_false] at *
      omega
    exact encode_decodeMisc h1

end EncodeDecode

/-! ## Decoding an encoding (R73, R74, R76) -/

theorem Instr.eq_unknownOpcode_of_row {i : Instr} (h : i.row = none) : ∃ op, i = .unknownOpcode op := by
  cases i with
  | unknownOpcode op => exact ⟨op, rfl⟩
  | _ => cases h

theorem Instr.wf_of_row {i : Instr} {r : OpcodeRow} (h : i.row = some r) : i.wf = true := by
  cases i with
  | unknownOpcode op => cases h
  | _ => rfl

/-- The laws of `Laws.TableRow`, one per instruction, under one name (R73, R74). -/
theorem tableRow : ∀ i : Instr, Laws.TableRow.Statement i
  | .cls => Laws.TableRow.cls
  | .ret => Laws.TableRow.ret
  | .jp nnn => Laws.TableRow.jp nnn
  | .call nnn => Laws.TableRow.call nnn
  | .seImm x nn => Laws.TableRow.seImm x nn
  | .sneImm x nn => Laws.TableRow.sneImm x nn
  | .seReg x y => Laws.TableRow.seReg x y
  | .ldImm x nn => Laws.TableRow.ldImm x nn
  | .addImm x nn => Laws.TableRow.addImm x nn
  | .ldReg x y => Laws.TableRow.ldReg x y
  | .orReg x y => Laws.TableRow.orReg x y
  | .andReg x y => Laws.TableRow.andReg x y
  | .xorReg x y => Laws.TableRow.xorReg x y
  | .addReg x y => Laws.TableRow.addReg x y
  | .subReg x y => Laws.TableRow.subReg x y
  | .shr x y => Laws.TableRow.shr x y
  | .subnReg x y => Laws.TableRow.subnReg x y
  | .shl x y => Laws.TableRow.shl x y
  | .sneReg x y => Laws.TableRow.sneReg x y
  | .ldI nnn => Laws.TableRow.ldI nnn
  | .jpV0 nnn => Laws.TableRow.jpV0 nnn
  | .rnd x nn => Laws.TableRow.rnd x nn
  | .drw x y n => Laws.TableRow.drw x y n
  | .skp x => Laws.TableRow.skp x
  | .sknp x => Laws.TableRow.sknp x
  | .ldVxDt x => Laws.TableRow.ldVxDt x
  | .ldVxK x => Laws.TableRow.ldVxK x
  | .ldDtVx x => Laws.TableRow.ldDtVx x
  | .ldStVx x => Laws.TableRow.ldStVx x
  | .addIVx x => Laws.TableRow.addIVx x
  | .ldFVx x => Laws.TableRow.ldFVx x
  | .ldBVx x => Laws.TableRow.ldBVx x
  | .ldMemVx x => Laws.TableRow.ldMemVx x
  | .ldVxMem x => Laws.TableRow.ldVxMem x
  | .unknownOpcode op => Laws.TableRow.unknownOpcode op

theorem isKnownWord_encode {i : Instr} {r : OpcodeRow} (h : i.row = some r) : isKnownWord (encode i) = true := by
  have hrow := tableRow i (Instr.wf_of_row h)
  rw [h] at hrow
  exact List.any_eq_true.mpr ⟨r, hrow⟩

/-- A word that no pattern matches decodes to the catch-all: the word is the encoding of what it decodes to, and an
instruction with a row has a word that matches. -/
theorem decode_of_not_isKnownWord {op : Word} (h : isKnownWord op = false) : decode op = .unknownOpcode op := by
  have henc := encode_decode op
  cases hrow : (decode op).row with
  | none =>
    obtain ⟨w, hw⟩ := Instr.eq_unknownOpcode_of_row hrow
    rw [hw] at henc ⊢
    exact congrArg Instr.unknownOpcode henc
  | some r =>
    have hknown := isKnownWord_encode hrow
    rw [henc, h] at hknown
    cases hknown

/-- A well-formed instruction is what its word decodes to (R71-R73): its word has the major opcode, the operands and the
low nibbles that it was built from. -/
theorem decode_encode {i : Instr} (h : i.wf = true) : decode (encode i) = i := by
  cases i
  case unknownOpcode op =>
    have hunknown : isKnownWord op = false := by simpa [Instr.wf] using h
    exact decode_of_not_isKnownWord hunknown
  case cls | ret => decide
  all_goals simp [encode, decode, decodeAlu, decodeMisc]

end Sys2Proof

namespace Sys2Proof.Machine

/-! ## One cycle of a running engine (R55, R56, R80) -/

section RunningCycle

variable {s : State}

/-- The address a fetch beyond memory records: the lowest of pc and pc + 1 that does not exist (R204, D19). -/
theorem State.fetchFault_eq_some (h : 4096 ≤ s.pc.toNat + 1) :
    s.fetchFault = some (if 4096 ≤ s.pc.toNat then s.pc.toNat else 4096) := by
  rw [State.fetchFault, if_pos h, max_comm, max_def]

theorem opCycle_of_fetchFault {bad : Nat} (hrun : s.status = .running) (hf : s.fetchFault = some bad) :
    opCycle s = .next (s.halt .fetch s.pc none (some bad)) := by
  simp [opCycle, hrun, hf]

theorem opCycle_of_fetch (hrun : s.status = .running) (hpc : s.pc.toNat + 1 < 4096) :
    opCycle s = exec (decode s.fetchWord) s.advance := by
  simp [opCycle, hrun, State.fetchFault_eq_none_iff.mpr hpc]

/-- Bytes at pc that are an instruction's word, the high byte first, are fetched and decoded as it. -/
theorem State.decode_fetchWord {i : Instr} (hi : i.wf = true) (hhigh : s.byteAt s.pc.toNat = highByte (encode i))
    (hlow : s.byteAt (s.pc.toNat + 1) = lowByte (encode i)) : decode s.fetchWord = i := by
  rw [State.fetchWord, hhigh, hlow, wordOfBytes_high_low, decode_encode hi]

end RunningCycle

/-- Settles O8: the step is the cycle, the cycle runs what the word at pc decodes to, and that is `i`. -/
theorem stepRunsTheDecodedInstruction : Obligations.StepRunsTheDecodedInstruction := by
  intro i s hi hrun hnext hpc hhigh hlow
  have hdecode : decode (s.setInbox s.inbox.tail).fetchWord = i := State.decode_fetchWord hi hhigh hlow
  calc step s
      = opCycle (s.setInbox s.inbox.tail) := step_of_cycleNext hnext
    _ = exec (decode (s.setInbox s.inbox.tail).fetchWord) (s.setInbox s.inbox.tail).advance := opCycle_of_fetch hrun hpc
    _ = exec i ((s.setInbox s.inbox.tail).setPc (s.pc + 2)) := by rw [hdecode]; rfl

/-- Settles O9: the step is the cycle, and the cycle takes the Fetch fault, which writes only status. -/
theorem fetchOutsideMemoryHalts : Obligations.FetchOutsideMemoryHalts := by
  intro s hrun hnext hpc
  have hstep := (step_of_cycleNext hnext).trans (opCycle_of_fetchFault hrun (State.fetchFault_eq_some hpc))
  refine ⟨_, hstep, rfl, ?_, rfl⟩
  exact (((s.setInbox_writesOnly _).mono (by simp)).trans ((State.halt_writesOnly ..).mono (by simp))).unchanged

/-! ## Fetching what FX55 stored (R60, D13, R174) -/

section BlockStore

variable {s t : State} {x : Reg}

@[simp] theorem State.length_regsUpTo (s : State) (x : Reg) : (s.regsUpTo x).length = x.val + 1 := by
  have hx := x.isLt
  simp only [State.regsUpTo, List.length_take, Vector.length_toList]
  omega

theorem State.getElem_regsUpTo (s : State) (x : Reg) (k : Reg) (hk : k.val < (s.regsUpTo x).length) :
    (s.regsUpTo x)[k.val] = s.getV k := by
  simp [State.regsUpTo, State.getV, Vector.get_eq_getElem]

/-- FX55 in range takes no fault. -/
theorem exec_ldMemVx_inRange (hin : s.I.toNat + x.val < 4096) (h : exec (.ldMemVx x) s = .next t) :
    t = s.storeBytes (s.eaI 0) (s.regsUpTo x) := by
  obtain ⟨bad, hbad, -⟩ | ⟨-, rfl⟩ := exec_ldMemVx_cases h
  · have hnone : outOfRange (s.eaI 0) (x.val + 1) = none :=
      outOfRange_eq_none_iff.mpr fun k hk => by simp only [State.eaI]; omega
    rw [hnone] at hbad
    cases hbad
  · rfl

/-- After FX55 in range the byte at I + k is Vk. -/
theorem exec_ldMemVx_byteAt (hwf : s.mem.wf s.font = true) (hin : s.I.toNat + x.val < 4096)
    (h : exec (.ldMemVx x) s = .next t) {k : Reg} (hk : k ≤ x) : t.byteAt (s.I.toNat + k.val) = s.getV k := by
  have hlen : k.val < (s.regsUpTo x).length := by simpa using Nat.lt_succ_of_le hk
  have hfit : s.eaI 0 + (s.regsUpTo x).length ≤ 4096 := by simp [State.eaI]; omega
  rw [exec_ldMemVx_inRange hin h, ← s.getElem_regsUpTo x k hlen]
  exact State.byteAt_storeBytes_inside hwf hfit hlen

end BlockStore

theorem wordOfBytes_toNat (hi lo : Byte) : (wordOfBytes hi lo).toNat = hi.toNat * 256 + lo.toNat := by
  have hlt := lo.isLt
  rw [wordOfBytes, BitVec.toNat_append, ← Nat.shiftLeft_add_eq_or_of_lt hlt, Nat.shiftLeft_eq]

/-- Settles O49: the bytes at I and I + 1 are V0 and V1, and a fetch at I reads them, the first as the high byte. -/
theorem storedBytesAreFetched : Obligations.StoredBytesAreFetched := by
  intro x s t hwf hin hx h
  have hV0 : t.byteAt s.I.toNat = s.getV 0 := exec_ldMemVx_byteAt hwf hin h (Fin.zero_le x)
  have hV1 : t.byteAt (s.I.toNat + 1) = s.getV 1 := exec_ldMemVx_byteAt (k := 1) hwf hin h hx
  rw [State.fetchWord, State.setPc_pc, State.setPc_byteAt, State.setPc_byteAt, hV0, hV1, wordOfBytes_toNat]

end Sys2Proof.Machine

namespace Sys2Proof

/-! ## The rows a word matches and the instruction it decodes to (R73-R76) -/

section Rows

variable {r : OpcodeRow} {op : Word}

theorem OpcodeRow.hits_iff : r.hits op = true ↔ op &&& r.mask = r.value := by simp [OpcodeRow.hits]

/-- Where a row fixes a field whole, a word that matches has the row's field there (R74). -/
theorem OpcodeRow.extractLsb'_of_hits {start len : Nat} (hmask : r.mask.extractLsb' start len = BitVec.allOnes len)
    (h : r.hits op = true) : op.extractLsb' start len = r.value.extractLsb' start len := by
  rw [← OpcodeRow.hits_iff.mp h, BitVec.extractLsb'_and, hmask, BitVec.and_allOnes]

/-- Every row fixes the major opcode. -/
theorem majorOf_of_hits (hr : r ∈ opcodeRows) (h : r.hits op = true) : majorOf op = r.value.extractLsb' 12 4 := by
  have hmask : ∀ r ∈ opcodeRows, r.mask.extractLsb' 12 4 = BitVec.allOnes 4 := by decide
  exact OpcodeRow.extractLsb'_of_hits (hmask r hr) h

/-- The rows of format XY fix the function nibble. -/
theorem functionNibble_of_hits (hr : r ∈ rowsXY) (h : r.hits op = true) :
    functionNibble op = r.value.extractLsb' 0 4 := by
  have hmask : ∀ r ∈ rowsXY, r.mask.extractLsb' 0 4 = BitVec.allOnes 4 := by decide
  exact OpcodeRow.extractLsb'_of_hits (hmask r hr) h

/-- The rows of format XF fix the function byte. -/
theorem fieldNN_of_hits (hr : r ∈ rowsXF) (h : r.hits op = true) : fieldNN op = r.value.extractLsb' 0 8 := by
  have hmask : ∀ r ∈ rowsXF, r.mask.extractLsb' 0 8 = BitVec.allOnes 8 := by decide
  exact OpcodeRow.extractLsb'_of_hits (hmask r hr) h

/-- The rows of format Z fix the whole word. -/
theorem eq_value_of_hits (hr : r ∈ rowsZ) (h : r.hits op = true) : op = r.value := by
  have hmask : ∀ r ∈ rowsZ, r.mask = BitVec.allOnes 16 := by decide
  rw [← OpcodeRow.hits_iff.mp h, hmask r hr, BitVec.and_allOnes]

/-- A word that matches a row decodes to an instruction of that row: the decoder selects by the fields the row fixes,
which are its major opcode and, by its format, more. -/
theorem row_decode_of_hits (hr : r ∈ opcodeRows) (h : r.hits op = true) : (decode op).row = some r := by
  have h1 := majorOf_of_hits hr h
  simp only [opcodeRows, List.mem_append] at hr
  obtain ((((hZ | hA) | hXB) | hXY) | hXYN) | hXF := hr
  · have hvalue : ∀ r ∈ rowsZ, (decode r.value).row = some r := by decide
    exact eq_value_of_hits hZ h ▸ hvalue r hZ
  · simp only [rowsA, List.mem_cons, List.not_mem_nil, or_false] at hA
    obtain rfl | rfl | rfl | rfl := hA <;> simp [decode, h1, Instr.row]
  · simp only [rowsXB, List.mem_cons, List.not_mem_nil, or_false] at hXB
    obtain rfl | rfl | rfl | rfl | rfl := hXB <;> simp [decode, h1, Instr.row]
  · have h4 := functionNibble_of_hits hXY h
    simp only [rowsXY, List.mem_cons, List.not_mem_nil, or_false] at hXY
    obtain rfl | rfl | rfl | rfl | rfl | rfl | rfl | rfl | rfl | rfl | rfl := hXY <;>
      simp [decode, decodeAlu, h1, h4, Instr.row]
  · obtain rfl := List.mem_singleton.mp hXYN
    simp [decode, h1, Instr.row]
  · have hlow := fieldNN_of_hits hXF h
    simp only [rowsXF, List.mem_cons, List.not_mem_nil, or_false] at hXF
    obtain rfl | rfl | rfl | rfl | rfl | rfl | rfl | rfl | rfl | rfl | rfl := hXF <;>
      simp [decode, decodeMisc, h1, hlow, Instr.row]

theorem hits_eq_false_of_row_decode (hnone : (decode op).row = none) (hr : r ∈ opcodeRows) : r.hits op = false := by
  by_contra h
  have hrow := row_decode_of_hits hr (Bool.eq_true_of_not_eq_false h)
  rw [hnone] at hrow
  cases hrow

theorem isKnownWord_of_row_decode (hnone : (decode op).row = none) : isKnownWord op = false :=
  List.any_eq_false.mpr fun _ hr => Bool.eq_false_iff.mp (hits_eq_false_of_row_decode hnone hr)

/-- The decoder answers well-formed instructions only: its catch-all holds the word itself, which no row matches. -/
theorem wf_decode (op : Word) : (decode op).wf = true := by
  cases hrow : (decode op).row with
  | some r => exact Instr.wf_of_row hrow
  | none =>
    obtain ⟨w, hw⟩ := Instr.eq_unknownOpcode_of_row hrow
    have hop : w = op := by simpa [hw, encode] using encode_decode op
    simp [hw, hop, Instr.wf, isKnownWord_of_row_decode hrow]

end Rows

/-- Settles O1, by the round trip of every instruction. -/
theorem decodeOfEncodeIsIdentity : Obligations.DecodeOfEncodeIsIdentity :=
  fun _ => decode_encode

/-- Settles O2: no branch of the decoder drops a bit, and its catch-all holds only words that no row matches. -/
theorem encodeOfDecodeIsIdentity : Obligations.EncodeOfDecodeIsIdentity :=
  fun op => ⟨encode_decode op, wf_decode op⟩

/-- Settles O4: a row that a word matches is the row of the one instruction it decodes to. -/
theorem patternsArePairwiseDisjoint : Obligations.PatternsArePairwiseDisjoint := by
  refine fun op => ⟨fun r₁ hr₁ r₂ hr₂ h₁ h₂ => ?_, fun ⟨w, hw⟩ r hr => ?_⟩
  · exact Option.some.inj ((row_decode_of_hits hr₁ h₁).symm.trans (row_decode_of_hits hr₂ h₂))
  · exact hits_eq_false_of_row_decode (by rw [hw]; rfl) hr

/-! ## Words and fields as numbers (R71, R72) -/

section Numbers

theorem toNat_append_eq_add {m n : Nat} (a : BitVec m) (b : BitVec n) :
    (a ++ b).toNat = a.toNat * 2 ^ n + b.toNat := by
  rw [BitVec.toNat_append, ← Nat.shiftLeft_add_eq_or_of_lt b.isLt, Nat.shiftLeft_eq]

theorem wordA_toNat (n1 : BitVec 4) (nnn : Addr) : (wordA n1 nnn).toNat = n1.toNat * 4096 + nnn.toNat :=
  toNat_append_eq_add n1 nnn

theorem wordXB_toNat (n1 : BitVec 4) (x : Reg) (low : Byte) :
    (wordXB n1 x low).toNat = n1.toNat * 4096 + x.val * 256 + low.toNat := by
  simp only [wordXB, toNat_append_eq_add, BitVec.toNat_ofFin]
  omega

theorem wordXY_toNat (n1 : BitVec 4) (x y : Reg) (last : BitVec 4) :
    (wordXY n1 x y last).toNat = n1.toNat * 4096 + x.val * 256 + y.val * 16 + last.toNat := by
  simp only [wordXY, toNat_append_eq_add, BitVec.toNat_ofFin]
  omega

theorem majorOf_toNat (op : Word) : (majorOf op).toNat = op.toNat / 4096 := by
  have hlt := op.isLt
  rw [majorOf, BitVec.extractLsb_toNat, Nat.shiftRight_eq_div_pow]
  omega

theorem functionNibble_toNat (op : Word) : (functionNibble op).toNat = op.toNat % 16 :=
  BitVec.extractLsb_toNat 3 0 op

theorem fieldNN_toNat (op : Word) : (fieldNN op).toNat = op.toNat % 256 :=
  BitVec.extractLsb_toNat 7 0 op

end Numbers

/-- Settles O3: the word of each format is the sum of its fields at their places, by format. -/
theorem encodingFollowsTheOpcodeMap : Obligations.EncodingFollowsTheOpcodeMap := by
  intro i
  cases i
  case cls | ret | unknownOpcode => rfl
  case jp | call | ldI | jpV0 => exact wordA_toNat ..
  case seImm | sneImm | ldImm | addImm | rnd => exact wordXB_toNat ..
  case drw => exact wordXY_toNat ..
  case seReg | sneReg | ldReg => exact wordXY_toNat ..
  case orReg | andReg | xorReg | addReg | subReg | subnReg | shr | shl =>
    exact (wordXY_toNat ..).trans (by simp only [Machine.opcodeMapNumber, BitVec.reduceToNat]; omega)
  case skp | sknp | ldVxDt | ldVxK | ldDtVx | ldStVx | addIVx | ldFVx | ldBVx | ldMemVx | ldVxMem =>
    exact (wordXB_toNat ..).trans (by simp only [Machine.opcodeMapNumber, BitVec.reduceToNat]; omega)

/-! ## Which words are the catch-all's (R76, D14) -/

section CatchAll

variable {op : Word}

theorem decodeAlu_eq_unknownOpcode_iff :
    decodeAlu op = .unknownOpcode op ↔ (functionNibble op).toNat ∈ [0x8, 0x9, 0xA, 0xB, 0xC, 0xD, 0xF] := by
  have hlt := (functionNibble op).isLt
  unfold decodeAlu
  split
  case h_10 =>
    simp only [List.mem_cons, List.not_mem_nil, imp_false, true_iff] at *
    omega
  all_goals simp [*]

theorem decodeMisc_eq_unknownOpcode_iff :
    decodeMisc op = .unknownOpcode op ↔
      (fieldNN op).toNat ∉ [0x07, 0x0A, 0x15, 0x18, 0x1E, 0x29, 0x33, 0x55, 0x65] := by
  unfold decodeMisc
  split
  case h_10 => simp_all
  all_goals simp [*]

end CatchAll

/-- Settles O5, by the branches of the decoder: the major opcodes 0, 5, 8, 9, E and F have words left over, by the low
nibbles, and the others (the last line) have none. -/
theorem unknownSpaceIsTheListedOne : Obligations.UnknownSpaceIsTheListedOne := by
  intro op
  dsimp only
  rw [← majorOf_toNat, ← functionNibble_toNat, ← fieldNN_toNat]
  unfold decode
  split
  case h_1 h1 =>
    have hcls : op = 0x00E0 ↔ op.toNat = 0x00E0 := BitVec.toNat_eq
    have hret : op = 0x00EE ↔ op.toNat = 0x00EE := BitVec.toNat_eq
    simp only [hcls, hret]
    split_ifs <;> simp [*]
  case h_6 h1 | h_10 h1 =>
    have hzero : functionNibble op = 0 ↔ (functionNibble op).toNat = 0 := BitVec.toNat_eq
    simp only [hzero]
    split_ifs <;> simp [*]
  case h_9 h1 => simp [decodeAlu_eq_unknownOpcode_iff, h1]
  case h_15 h1 =>
    have hskp : fieldNN op = 0x9E ↔ (fieldNN op).toNat = 0x9E := BitVec.toNat_eq
    have hsknp : fieldNN op = 0xA1 ↔ (fieldNN op).toNat = 0xA1 := BitVec.toNat_eq
    simp only [hskp, hsknp]
    split_ifs <;> simp [*]
  case h_16 =>
    have h1 : (majorOf op).toNat = 15 := by
      have hlt := (majorOf op).isLt
      simp only [imp_false] at *
      omega
    simp [decodeMisc_eq_unknownOpcode_iff, h1]
  all_goals simp [*]

/-- Settles O6, by decoding the eight words. -/
theorem sampleWordsDecodeAsWritten : Obligations.SampleWordsDecodeAsWritten := by
  unfold Obligations.SampleWordsDecodeAsWritten
  decide

/-- Settles O7: the two bytes make up the instruction's word again, and the decoder leaves the rest. -/
theorem decodingConsumesTwoBytes : Obligations.DecodingConsumesTwoBytes := by
  refine ⟨fun i rest hi => ?_, fun _ => rfl, rfl⟩
  calc decodeBytes (encodeBytes i ++ rest)
      = .ok (decode (wordOfBytes (highByte (encode i)) (lowByte (encode i))), rest) := rfl
    _ = .ok (i, rest) := by rw [Machine.wordOfBytes_high_low, decode_encode hi]

end Sys2Proof

namespace Sys2Proof.Machine

/-! ## Every operation answers a next state (R77, R203, R205, R206) -/

/-- Every instruction has an effect, a fault included. -/
theorem exec_answers (i : Instr) (s : State) : ∃ t, exec i s = .next t := by
  cases i
  case ret | call | drw | skp | sknp | ldVxK | ldBVx | ldMemVx | ldVxMem =>
    simp only [exec, execRet, execCall, execDrw, execSkp, execSknp, execLdVxK, execLdBVx, execLdMemVx, execLdVxMem]
    split <;> exact ⟨_, rfl⟩
  all_goals exact ⟨_, rfl⟩

theorem opCycle_answers (s : State) : ∃ t, opCycle s = .next t := by
  unfold opCycle
  split
  · exact ⟨_, rfl⟩
  split
  · exact ⟨_, rfl⟩
  · exact exec_answers ..

theorem runPort_answers (op : PortOp) (s : State) : ∃ t, runPort op s = .next t := by
  cases op with
  | cycle => exact opCycle_answers s
  | _ => exact ⟨_, rfl⟩

/-- Settles O10: a step is one operation, and every operation answers. -/
theorem everyStepAnswersANextState : Obligations.EveryStepAnswersANextState :=
  fun _ => runPort_answers ..

end Sys2Proof.Machine

namespace Sys2Proof.Machine

/-! ## Control transfer (40_control R100-R108) -/

@[simp] theorem zextAddr_toNat (nnn : Addr) : (zextAddr nnn).toNat = nnn.toNat :=
  BitVec.toNat_setWidth_of_le (by decide)

/-- The offset jump's sum stays below 2^16, so it is exact (R107). -/
theorem zext16_add_zextAddr_toNat (b : Byte) (nnn : Addr) : (zext16 b + zextAddr nnn).toNat = b.toNat + nnn.toNat := by
  have hb : (zext16 b).toNat = b.toNat := BitVec.toNat_setWidth_of_le (by decide)
  have hlt : b.toNat + nnn.toNat < 2 ^ 16 := by omega
  rw [BitVec.toNat_add, hb, zextAddr_toNat, Nat.mod_eq_of_lt hlt]

/-- Settles O19: the jump writes pc alone, and NNN widened to 16 bits is the same number. -/
theorem jumpGoesToItsAddress : Obligations.JumpGoesToItsAddress :=
  fun nnn s => ⟨_, exec_jp s nnn, zextAddr_toNat nnn, (s.setPc_writesOnly _).unchanged⟩

/-- Settles O20: the jump writes pc alone, and the sum is exact. -/
theorem offsetJumpAddsV0 : Obligations.OffsetJumpAddsV0 :=
  fun nnn s => ⟨_, exec_jpV0 s nnn, zext16_add_zextAddr_toNat _ nnn, (s.setPc_writesOnly _).unchanged⟩

/-! ### The skips -/

section Skips

variable (s : State) (a b : Byte)

theorem State.skipIf_beq_pc : (s.skipIf (a == b)).pc = if a.toNat = b.toNat then s.pc + 2 else s.pc := by
  simp [State.skipIf_eq, BitVec.toNat_inj]

theorem State.skipIf_bne_pc : (s.skipIf (a != b)).pc = if a.toNat = b.toNat then s.pc else s.pc + 2 := by
  simp [State.skipIf_eq, BitVec.toNat_inj]

end Skips

/-- Settles O21: each of the four is a skip on an equality or an inequality of two bytes, and a skip writes pc alone. -/
theorem comparisonsSkipTheNextWord : Obligations.ComparisonsSkipTheNextWord := by
  intro x y nn s
  have hframe (c : Bool) : UnchangedBut [.pc] s (s.skipIf c) := (s.skipIf_writesOnly c).unchanged
  refine ⟨⟨_, exec_seImm s x nn, ?_⟩, ⟨_, exec_sneImm s x nn, ?_⟩, ⟨_, exec_seReg s x y, ?_⟩, ⟨_, exec_sneReg s x y, ?_⟩⟩
  · exact ⟨hframe _, s.skipIf_beq_pc _ _⟩
  · exact ⟨hframe _, s.skipIf_bne_pc _ _⟩
  · exact ⟨hframe _, s.skipIf_beq_pc _ _⟩
  · exact ⟨hframe _, s.skipIf_bne_pc _ _⟩

/-! ### The stack -/

section Stack

variable {s u : State} {w : Word} {nnn : Addr}

theorem State.push_of_free (h : s.sp.val < 16) (w : Word) :
    ∃ u, s.push w = some u ∧ u.sp.val = s.sp.val + 1 ∧
      ∀ k : Fin 16, u.stack.get k = if k.val = s.sp.val then w else s.stack.get k := by
  refine ⟨_, dif_pos h, rfl, fun k => ?_⟩
  simp [Vector.get_eq_getElem, Vector.getElem_set, eq_comm]

theorem State.pop_of_used {k : Fin 16} (h : s.sp.val = k.val + 1) :
    ∃ u, s.pop = some (s.stack.get k, u) ∧ u.sp.val = k.val := by
  have hpos : 0 < s.sp.val := by omega
  refine ⟨{ s with sp := ⟨s.sp.val - 1, by omega⟩ }, ?_, by simp [h]⟩
  simp [State.pop, h, Vector.get_eq_getElem]

theorem exec_call_of_push (h : s.push s.pc = some u) : exec (.call nnn) s = .next (u.setPc (zextAddr nnn)) := by
  simp [exec, execCall, h]

theorem exec_call_of_full (h : s.push s.pc = none) :
    exec (.call nnn) s = .next (s.faultOf (.call nnn) .stackOverflow none) := by
  simp [exec, execCall, h]

theorem exec_ret_of_pop (h : s.pop = some (w, u)) : exec .ret s = .next (u.setPc w) := by
  simp [exec, execRet, h]

theorem exec_ret_of_empty (h : s.pop = none) : exec .ret s = .next (s.faultOf .ret .stackUnderflow none) := by
  simp [exec, execRet, h]

end Stack

/-- Settles O22: the push writes the entry at sp and counts it, then the jump writes pc. -/
theorem callPushesTheReturnAddress : Obligations.CallPushesTheReturnAddress := by
  intro nnn s hfree
  obtain ⟨u, hpush, hsp, hstack⟩ := State.push_of_free hfree s.pc
  have hw : WritesOnly [.pc, .stack, .sp] s (u.setPc (zextAddr nnn)) :=
    ((State.push_writesOnly hpush).mono (by simp)).trans ((u.setPc_writesOnly _).mono (by simp))
  exact ⟨_, exec_call_of_push hpush, hw.unchanged, zextAddr_toNat nnn, hsp, hstack⟩

/-- Settles O23: the pop gives the top entry and writes sp alone, then the return writes pc. -/
theorem returnPopsTheTopEntry : Obligations.ReturnPopsTheTopEntry := by
  intro s k hk
  obtain ⟨u, hpop, hsp⟩ := State.pop_of_used hk
  have hw : WritesOnly [.pc, .sp] s (u.setPc (s.stack.get k)) :=
    ((State.pop_writesOnly hpop).mono (by simp)).trans ((u.setPc_writesOnly _).mono (by simp))
  exact ⟨_, exec_ret_of_pop hpop, hw.unchanged, rfl, hsp⟩

/-- Settles O24: a push fails exactly at 16 entries and a pop exactly at none, and a fault writes status alone. -/
theorem stackFaultsHalt : Obligations.StackFaultsHalt := by
  refine fun s => ⟨fun hfull nnn => ?_, fun hempty => ?_⟩
  · exact ⟨_, exec_call_of_full (s.push_eq_none_iff.mpr hfull), (s.faultOf_writesOnly ..).unchanged, rfl⟩
  · exact ⟨_, exec_ret_of_empty (s.pop_eq_none_iff.mpr hempty), (s.faultOf_writesOnly ..).unchanged, rfl⟩

/-- Settles O25: the call leaves its return address as the top entry (O22), and the return pops that entry (O23). -/
theorem returnUndoesCall : Obligations.ReturnUndoesCall := by
  intro nnn s t u v hfree hcall hstack hsp hret
  obtain ⟨_, ht, -, -, hpushed, hentries⟩ := callPushesTheReturnAddress nnn s hfree
  obtain rfl := eq_of_exec ht hcall
  obtain ⟨_, hv, hframe, hpc, hpopped⟩ := returnPopsTheTopEntry u ⟨s.sp.val, hfree⟩ (by rw [hsp, hpushed])
  obtain rfl := eq_of_exec hv hret
  exact ⟨by rw [hpc, hstack, hentries, if_pos rfl], Fin.ext hpopped, hframe .status (by decide)⟩

end Sys2Proof.Machine

namespace Sys2Proof.Machine

/-! ## Loads and ALU (41_alu R119-R132) -/

section Registers

variable {s : State} {x : Reg} {b : Byte} {f : Bool}

theorem State.setV_regsBut : RegsBut [x] s (s.setV x b) :=
  fun _ hr => s.getV_setV_other b (by simpa using hr)

theorem State.writeResultFlag_regsBut : RegsBut [x, 15] s (s.writeResultFlag x b f) :=
  fun _ hr => State.getV_writeResultFlag_other (by simpa [regF] using hr)

/-- VF is kept by a write to another register. -/
theorem State.getV_F_setV (hx : x ≠ 15) : (s.setV x b).getV 15 = s.getV 15 :=
  s.getV_setV_other b hx.symm

theorem State.setV_getV (s : State) (x : Reg) : s.setV x (s.getV x) = s := by
  simp [State.setV, State.getV, Vector.get_eq_getElem]

/-- The flag is written last, so VF holds it for every destination (R129). -/
theorem State.getV_F_writeResultFlag : (s.writeResultFlag x b f).getV 15 = flagByte f :=
  (s.getV_writeResultFlag x 15 b f).trans (if_pos rfl)

theorem State.getV_writeResultFlag_dest (hx : x ≠ 15) : (s.writeResultFlag x b f).getV x = b :=
  (s.getV_writeResultFlag x x b f).trans ((if_neg hx).trans (if_pos rfl))

end Registers

section Flags

variable (a b : Byte)

theorem flagByte_toNat (f : Bool) : (flagByte f).toNat = f.toNat := by
  cases f <;> rfl

theorem flagByte_carryOut_toNat : (flagByte (carryOut a b)).toNat = if a.toNat + b.toNat > 255 then 1 else 0 := by
  rw [flagByte_toNat, carryOut, Bool.toNat, Bool.cond_decide]

theorem flagByte_noBorrow_toNat : (flagByte (noBorrow a b)).toNat = if a.toNat ≥ b.toNat then 1 else 0 := by
  rw [flagByte_toNat, noBorrow, Bool.toNat, Bool.cond_decide]

theorem flagByte_outRight_toNat : (flagByte (outRight a)).toNat = a.toNat % 2 := by
  rw [flagByte_toNat, outRight, BitVec.getLsbD, Nat.toNat_testBit, pow_zero, Nat.div_one]

theorem flagByte_outLeft_toNat : (flagByte (outLeft a)).toNat = a.toNat / 128 := by
  have hlt : a.toNat / 128 < 2 := by omega
  rw [flagByte_toNat, outLeft, BitVec.getLsbD, Nat.toNat_testBit]
  exact Nat.mod_eq_of_lt hlt

/-- A difference of bytes wraps to the residue of the exact difference (R127, R130). -/
theorem sub_toNat_eq_emod : ((a - b).toNat : Int) = ((a.toNat : Int) - b.toNat) % 256 := by
  rw [BitVec.toNat_sub]
  omega

theorem ushiftRight_one_toNat : (a >>> 1).toNat = a.toNat / 2 := by
  rw [BitVec.toNat_ushiftRight, Nat.shiftRight_eq_div_pow, pow_one]

theorem shiftLeft_one_toNat : (a <<< 1).toNat = a.toNat * 2 % 256 := by
  rw [BitVec.toNat_shiftLeft, Nat.shiftLeft_eq, pow_one]

end Flags

/-- Settles O26: each load is one register write, and writing a register's own value changes nothing. -/
theorem loadsWriteTheDestination : Obligations.LoadsWriteTheDestination := by
  intro x y nn s
  refine ⟨⟨encodingFollowsTheOpcodeMap (.ldImm x nn), _, exec_ldImm s x nn, ?_⟩,
    encodingFollowsTheOpcodeMap (.ldReg x y), _, exec_ldReg s x y, ?_⟩
  · exact ⟨s.getV_setV_same x nn, State.getV_F_setV, rfl⟩
  · refine ⟨s.getV_setV_same x _, State.getV_F_setV, rfl, ?_⟩
    rintro rfl
    rw [State.setV_getV]
    exact (WritesOnly.refl [] s).unchanged

/-- Settles O27: one register write, whose byte is the wrapped sum. -/
theorem addImmediateWrapsWithoutFlag : Obligations.AddImmediateWrapsWithoutFlag := by
  refine fun x nn s => ⟨encodingFollowsTheOpcodeMap (.addImm x nn), _, exec_addImm s x nn, ?_, State.getV_F_setV, rfl⟩
  rw [State.getV_setV_same, BitVec.toNat_add]

/-- Settles O28: one register write each, whose byte is the bitwise operation. -/
theorem logicWorksBitByBit : Obligations.LogicWorksBitByBit := by
  intro x y s
  have hframe (b : Byte) : UnchangedBut [.V] s (s.setV x b) := (s.setV_writesOnly x b).unchanged
  refine ⟨⟨_, exec_orReg s x y, State.setV_regsBut, hframe _, fun k => ?_⟩,
    ⟨_, exec_andReg s x y, State.setV_regsBut, hframe _, fun k => ?_⟩,
    ⟨_, exec_xorReg s x y, State.setV_regsBut, hframe _, fun k => ?_⟩⟩
  · rw [State.getV_setV_same, BitVec.getLsbD_or]
  · rw [State.getV_setV_same, BitVec.getLsbD_and]
  · rw [State.getV_setV_same, BitVec.getLsbD_xor]

/-- Settles O29: the result is the wrapped sum, and VF is the carry of the exact one. -/
theorem addSetsCarry : Obligations.AddSetsCarry := by
  refine fun x y s => ⟨encodingFollowsTheOpcodeMap (.addReg x y), _, exec_addReg s x y, fun hx => ?_, ?_, rfl⟩
  · rw [State.getV_writeResultFlag_dest hx, BitVec.toNat_add]
  · rw [State.getV_F_writeResultFlag, flagByte_carryOut_toNat]

/-- Settles O30: the result is the wrapped difference, and VF tells that there was no borrow. -/
theorem subtractSetsNoBorrow : Obligations.SubtractSetsNoBorrow := by
  refine fun x y s => ⟨encodingFollowsTheOpcodeMap (.subReg x y), _, exec_subReg s x y, fun hx => ?_, ?_, rfl⟩
  · rw [State.getV_writeResultFlag_dest hx, sub_toNat_eq_emod]
  · rw [State.getV_F_writeResultFlag, flagByte_noBorrow_toNat]

/-- Settles O31: as O30, with the operands exchanged. -/
theorem reverseSubtractSetsNoBorrow : Obligations.ReverseSubtractSetsNoBorrow := by
  refine fun x y s => ⟨encodingFollowsTheOpcodeMap (.subnReg x y), _, exec_subnReg s x y, fun hx => ?_, ?_, rfl⟩
  · rw [State.getV_writeResultFlag_dest hx, sub_toNat_eq_emod]
  · rw [State.getV_F_writeResultFlag, flagByte_noBorrow_toNat]

/-- Settles O32: a shift writes its result and then the bit it moves out, and neither depends on Y (R78). -/
theorem shiftsMoveOneBitIntoVF : Obligations.ShiftsMoveOneBitIntoVF := by
  intro x y s
  have hframe (b : Byte) (f : Bool) : UnchangedBut [.V] s (s.writeResultFlag x b f) :=
    (s.writeResultFlag_writesOnly x b f).unchanged
  refine ⟨⟨_, exec_shr s x y, fun hx => ?_, ?_, State.writeResultFlag_regsBut, hframe _ _⟩,
    ⟨_, exec_shl s x y, fun hx => ?_, ?_, State.writeResultFlag_regsBut, hframe _ _⟩, fun y' => ⟨?_, ?_⟩⟩
  · rw [State.getV_writeResultFlag_dest hx, ushiftRight_one_toNat]
  · rw [State.getV_F_writeResultFlag, flagByte_outRight_toNat]
  · rw [State.getV_writeResultFlag_dest hx, shiftLeft_one_toNat]
  · rw [State.getV_F_writeResultFlag, flagByte_outLeft_toNat]
  · rw [exec_shr, exec_shr]
  · rw [exec_shl, exec_shl]

/-- Settles O33: one draw is counted, and the byte it supplied is written under the mask. -/
theorem randomByteIsMasked : Obligations.RandomByteIsMasked := by
  intro x nn s
  refine ⟨_, exec_rnd s x nn, rfl, fun k => ?_, State.setV_regsBut (s := s.countDraw),
    (exec_writesOnly (exec_rnd s x nn)).unchanged⟩
  rw [State.getV_setV_same, BitVec.getLsbD_and, State.nextRand]

end Sys2Proof.Machine

namespace Sys2Proof.Machine

/-! ## Display (42_display R150-R152) -/

/-- Settles O34: one framebuffer write, of a frame with every cell false. -/
theorem clearEmptiesTheScreen : Obligations.ClearEmptiesTheScreen :=
  fun s => ⟨rfl, _, exec_cls s, Frame.cell_clear, (exec_writesOnly (exec_cls s)).unchanged⟩

/-! ### The bounds check of DXYN (R53) -/

/-- The check records the lowest bad address: the one at or above 4096 below which every accessed byte exists. -/
theorem outOfRange_eq_some {base n row : Nat} (hrow : row < n) (hbad : 4096 ≤ base + row)
    (hlow : ∀ j, j < row → base + j < 4096) : outOfRange base n = some (base + row) := by
  cases hcheck : outOfRange base n with
  | none => exact absurd (outOfRange_eq_none_iff.mp hcheck row hrow) (by omega)
  | some a =>
    obtain ⟨ha, hbase, -, hleast⟩ := outOfRange_some hcheck
    have hle := hleast row hrow hbad
    have hnlt : ¬ a - base < row := fun hlt => absurd (hlow _ hlt) (by omega)
    rw [show a = base + row by omega]

/-- Settles O36: the check finds the address given, and a fault writes status only. -/
theorem drawOutsideMemoryHalts : Obligations.DrawOutsideMemoryHalts := by
  rintro x y n s _ row hrow rfl hbad hlow
  obtain ⟨t, ht⟩ := exec_answers (.drw x y n) s
  have hcheck : outOfRange (s.eaI 0) n.val = some (s.I.toNat + row) := outOfRange_eq_some hrow hbad hlow
  obtain ⟨a, ha, rfl⟩ | ⟨hnone, -⟩ := exec_drw_cases ht
  · obtain rfl : s.I.toNat + row = a := Option.some.inj (hcheck.symm.trans ha)
    exact ⟨_, ht, (s.faultOf_writesOnly ..).unchanged, rfl⟩
  · exact absurd (hcheck.symm.trans hnone) (by simp)

/-! ### The cells a sprite hits (R151)

A draw is a fold of `Canvas.hit` over the cells of the sprite's 1 bits. They are pairwise different, since 8 columns fit
in 64 and the rows in 32, so each cell is flipped at most once and the collision bit tells of the screen before the
draw. -/

/-- The cells that the 1 bits of a sprite row hit. -/
def rowCells (x y : Nat) (b : Byte) : List Nat :=
  ((List.range 8).filter fun col => b.getLsbD (7 - col)).map fun col => cellIndex (x + col) y

/-- The cells that the 1 bits of a sprite hit, in the order of the draw. -/
def spriteCells (x y : Nat) : List Byte → List Nat
  | [] => []
  | b :: bs => rowCells x y b ++ spriteCells x (y + 1) bs

/-- A position and where it wraps to share a cell. -/
theorem cellIndex_mod (x y : Nat) : cellIndex (x % 64) (y % 32) = cellIndex x y :=
  (cellIndex_eq_iff ..).mpr ⟨Nat.mod_mod .., Nat.mod_mod ..⟩

section SpriteCells

variable {x y k : Nat} {b : Byte} {bs : List Byte}

theorem mem_rowCells : k ∈ rowCells x y b ↔ ∃ col < 8, b.getLsbD (7 - col) = true ∧ cellIndex (x + col) y = k := by
  simp [rowCells, and_assoc]

theorem mem_spriteCells : k ∈ spriteCells x y bs ↔ ∃ row, ∃ hrow : row < bs.length, ∃ col < 8,
    bs[row].getLsbD (7 - col) = true ∧ cellIndex (x + col) (y + row) = k := by
  induction bs generalizing y with
  | nil => simp [spriteCells]
  | cons b bs ih =>
    have hshift (row : Nat) : y + 1 + row = y + (row + 1) := by omega
    simp only [spriteCells, List.mem_append, mem_rowCells, ih, hshift]
    constructor
    · rintro (hfirst | ⟨row, hrow, hrest⟩)
      · exact ⟨0, Nat.zero_lt_succ _, hfirst⟩
      · exact ⟨row + 1, Nat.succ_lt_succ hrow, hrest⟩
    · rintro ⟨_ | row, hrow, hbit⟩
      · exact .inl hbit
      · exact .inr ⟨row, Nat.lt_of_succ_lt_succ hrow, hbit⟩

theorem nodup_rowCells : (rowCells x y b).Nodup := by
  refine (List.nodup_range.filter _).map_on fun col hcol col' hcol' hsame => ?_
  have hlt := List.mem_range.mp (List.mem_filter.mp hcol).1
  have hlt' := List.mem_range.mp (List.mem_filter.mp hcol').1
  obtain ⟨hmod, -⟩ := (cellIndex_eq_iff ..).mp hsame
  omega

/-- A sprite that is not taller than the screen hits no cell twice. -/
theorem nodup_spriteCells (hlen : bs.length ≤ 32) : (spriteCells x y bs).Nodup := by
  induction bs generalizing y with
  | nil => exact List.nodup_nil
  | cons b bs ih =>
    rw [List.length_cons] at hlen
    refine nodup_rowCells.append (ih (by omega)) fun k hfirst hrest => ?_
    obtain ⟨col, -, -, rfl⟩ := mem_rowCells.mp hfirst
    obtain ⟨row, hrow, col', -, -, hsame⟩ := mem_spriteCells.mp hrest
    obtain ⟨-, hmod⟩ := (cellIndex_eq_iff ..).mp hsame
    omega

theorem lt_of_mem_spriteCells (h : k ∈ spriteCells x y bs) : k < 2048 := by
  obtain ⟨row, -, col, -, -, rfl⟩ := mem_spriteCells.mp h
  exact cellIndex_lt ..

end SpriteCells

/-! ### A draw as a fold over those cells -/

section Hits

variable {c : Canvas} {cells : List Nat}

theorem Canvas.drawRow_eq_foldl (c : Canvas) (x y : Nat) (b : Byte) :
    c.drawRow x y b = (rowCells x y b).foldl Canvas.hit c := by
  rw [rowCells, List.foldl_map, List.foldl_filter]
  rfl

theorem Canvas.drawRows_eq_foldl (c : Canvas) (x y : Nat) (bs : List Byte) :
    c.drawRows x y bs = (spriteCells x y bs).foldl Canvas.hit c := by
  induction bs generalizing c y with
  | nil => rfl
  | cons b bs ih => rw [Canvas.drawRows, ih, Canvas.drawRow_eq_foldl, spriteCells, List.foldl_append]

/-- Hitting different cells flips exactly those. -/
theorem Canvas.cell_foldl_hit (hnodup : cells.Nodup) (hlt : ∀ k ∈ cells, k < 2048) (j : Nat) :
    Frame.cell (cells.foldl Canvas.hit c).fb j = (Frame.cell c.fb j ^^ decide (j ∈ cells)) := by
  induction cells generalizing c with
  | nil => simp
  | cons k cells ih =>
    obtain ⟨hk, hnodup⟩ := List.nodup_cons.mp hnodup
    obtain ⟨hklt, hlt⟩ := List.forall_mem_cons.mp hlt
    rw [List.foldl_cons, ih hnodup hlt, Canvas.hit_fb, Frame.cell_toggle _ hklt]
    by_cases hj : j = k
    · simp [hj, hk]
    · simp [hj]

/-- Hitting different cells collides exactly when one of them was set before. -/
theorem Canvas.collision_foldl_hit (hnodup : cells.Nodup) (hlt : ∀ k ∈ cells, k < 2048) :
    (cells.foldl Canvas.hit c).collision = (c.collision || cells.any (Frame.cell c.fb)) := by
  induction cells generalizing c with
  | nil => simp
  | cons k cells ih =>
    obtain ⟨hk, hnodup⟩ := List.nodup_cons.mp hnodup
    obtain ⟨hklt, hlt⟩ := List.forall_mem_cons.mp hlt
    have hrest : cells.any (Frame.cell (c.hit k).fb) = cells.any (Frame.cell c.fb) := by
      rw [Bool.eq_iff_iff, List.any_eq_true, List.any_eq_true]
      refine exists_congr fun j => and_congr_right fun hj => ?_
      rw [Canvas.hit_fb, Frame.cell_toggle _ hklt, decide_eq_false (ne_of_mem_of_not_mem hj hk), Bool.xor_false]
    rw [List.foldl_cons, ih hnodup hlt, hrest, Canvas.hit_collision, List.any_cons, Bool.or_assoc]

end Hits

/-! ### What DXYN does to the screen and to VF -/

/-- The cells that DXYN's sprite hits. -/
def State.drawnCells (s : State) (x y : Reg) (n : Fin 16) : List Nat :=
  spriteCells (s.getV x).toNat (s.getV y).toNat (s.loadBytes (s.eaI 0) n.val)

section Draw

variable {s t : State} {x y : Reg} {n : Fin 16}

theorem State.nodup_drawnCells : (s.drawnCells x y n).Nodup :=
  nodup_spriteCells (by rw [State.length_loadBytes]; omega)

theorem State.mem_drawnCells {k : Nat} : k ∈ s.drawnCells x y n ↔ ∃ row < n.val, ∃ col < 8,
    (s.byteAt (s.I.toNat + row)).getLsbD (7 - col) = true ∧
      cellIndex ((s.getV x).toNat + col) ((s.getV y).toNat + row) = k := by
  simp [State.drawnCells, mem_spriteCells, State.getElem_loadBytes, State.eaI]

/-- The sprite covers a pixel of the screen exactly when it hits the pixel's cell. -/
theorem spriteCovers_iff {px py : Nat} (hx : px < 64) (hy : py < 32) :
    SpriteCovers s x y n px py ↔ cellIndex px py ∈ s.drawnCells x y n := by
  simp [State.mem_drawnCells, SpriteCovers, cellIndex_eq_iff, Nat.mod_eq_of_lt, hx, hy]

section InRange

variable (hin : ∀ row, row < n.val → s.I.toNat + row < 4096) (h : exec (.drw x y n) s = .next t)
include hin h

/-- DXYN whose rows all exist takes no fault: it writes the drawn framebuffer, then VF. -/
theorem exec_drw_inRange :
    t = (s.setFb ((s.drawnCells x y n).foldl Canvas.hit ⟨s.fb, false⟩).fb).setV regF
      (flagByte ((s.drawnCells x y n).foldl Canvas.hit ⟨s.fb, false⟩).collision) := by
  obtain ⟨bad, hbad, -⟩ | ⟨-, c, rfl, rfl⟩ := exec_drw_cases h
  · exact absurd (hbad.symm.trans (outOfRange_eq_none_iff.mpr hin)) (by simp)
  · rw [drawSprite, Canvas.drawRows_eq_foldl, State.drawnCells]

/-- DXYN in range flips the cells its sprite hits, and no other. -/
theorem exec_drw_cell (k : Nat) :
    Frame.cell t.fb k = (Frame.cell s.fb k ^^ decide (k ∈ s.drawnCells x y n)) := by
  rw [exec_drw_inRange hin h, State.setV_fb, State.setFb_fb,
    Canvas.cell_foldl_hit State.nodup_drawnCells fun _ => lt_of_mem_spriteCells]

/-- After DXYN in range VF tells whether its sprite hit a cell that was set. -/
theorem exec_drw_getV_F : t.getV 15 = flagByte ((s.drawnCells x y n).any (Frame.cell s.fb)) := by
  rw [exec_drw_inRange hin h, ← regF, State.getV_setV_same,
    Canvas.collision_foldl_hit State.nodup_drawnCells fun _ => lt_of_mem_spriteCells, Bool.false_or]

end InRange

/-- A covered pixel of the screen was set exactly when the sprite hits a cell that is set. -/
theorem exists_covered_set_iff :
    (∃ px py, px < 64 ∧ py < 32 ∧ s.pixel px py = true ∧ SpriteCovers s x y n px py) ↔
      (s.drawnCells x y n).any (Frame.cell s.fb) = true := by
  rw [List.any_eq_true]
  constructor
  · rintro ⟨px, py, hx, hy, hset, hcovers⟩
    exact ⟨cellIndex px py, (spriteCovers_iff hx hy).mp hcovers, hset⟩
  · rintro ⟨k, hk, hset⟩
    obtain ⟨row, hrow, col, hcol, hbit, hcell⟩ := State.mem_drawnCells.mp hk
    refine ⟨((s.getV x).toNat + col) % 64, ((s.getV y).toNat + row) % 32, by omega, by omega, ?_,
      row, col, hrow, hcol, hbit, rfl, rfl⟩
    rwa [State.pixel, cellIndex_mod, hcell]

/-- A state with the same memory, I, Vx and Vy draws the same sprite at the same place. -/
theorem State.drawnCells_eq (hfont : t.font = s.font) (hmem : t.mem = s.mem) (hI : t.I = s.I)
    (hx : t.getV x = s.getV x) (hy : t.getV y = s.getV y) : t.drawnCells x y n = s.drawnCells x y n := by
  simp only [State.drawnCells, State.loadBytes, State.eaI, hfont, hmem, hI, hx, hy]

end Draw

/-- Settles O35: DXYN flips the cells of the covered pixels, and VF tells whether one of them was set. -/
theorem drawFlipsExactlyTheCoveredPixels : Obligations.DrawFlipsExactlyTheCoveredPixels := by
  intro x y n s hin
  obtain ⟨t, ht⟩ := exec_answers (.drw x y n) s
  have hVF := exec_drw_getV_F hin ht
  refine ⟨t, ht, fun px py hx hy => ?_, fun hset => ?_, fun hset => ?_, fun r hr => ?_, ?_⟩
  · rw [State.pixel, State.pixel, exec_drw_cell hin ht, spriteCovers_iff hx hy, Bool.xor_iff_ne, Ne, Bool.eq_iff_iff,
      decide_eq_true_iff]
  · rw [hVF, exists_covered_set_iff.mp hset]
    rfl
  · rw [hVF, Bool.eq_false_of_not_eq_true (exists_covered_set_iff.not.mp hset)]
    rfl
  · exact exec_getV ht (by simpa [MayWriteReg] using hr)
  · rw [exec_drw_inRange hin ht]
    exact (((s.setFb_writesOnly _).mono (by simp)).trans ((State.setV_writesOnly _ regF _).mono (by simp))).unchanged

/-- Settles O37: the second draw hits the same cells, so it flips each one back, and finds set what the first found
off. -/
theorem drawingTwiceRestoresTheScreen : Obligations.DrawingTwiceRestoresTheScreen := by
  intro x y n s t u hin hfirst hx hy hsecond
  obtain ⟨hsame, hmem⟩ := exec_writesOnly hfirst
  have hI : t.I = s.I := hsame .I (by simp [footprint])
  have hcells : t.drawnCells x y n = s.drawnCells x y n :=
    State.drawnCells_eq (hsame .font (by simp [footprint])) (hmem (by simp [footprint])) hI hx hy
  have hin' : ∀ row, row < n.val → t.I.toNat + row < 4096 := hI ▸ hin
  refine ⟨fun px py => ?_, fun ⟨row, col, hrow, hcol, hbit, hoff⟩ => ?_⟩
  · rw [State.pixel, State.pixel, exec_drw_cell hin' hsecond, exec_drw_cell hin hfirst, hcells, Bool.xor_assoc,
      Bool.xor_self, Bool.xor_false]
  · have hhit : cellIndex ((s.getV x).toNat + col) ((s.getV y).toNat + row) ∈ s.drawnCells x y n :=
      State.mem_drawnCells.mpr ⟨row, hrow, col, hcol, hbit, rfl⟩
    have hset : (s.drawnCells x y n).any (Frame.cell t.fb) = true := by
      refine List.any_eq_true.mpr ⟨_, hhit, ?_⟩
      rw [exec_drw_cell hin hfirst, ← State.pixel, hoff, decide_eq_true hhit, Bool.false_xor]
    rw [exec_drw_getV_F hin' hsecond, hcells, hset]
    rfl

end Sys2Proof.Machine

namespace Sys2Proof.Machine

/-! ## Keypad and timers (43_keypad_timer R159-R165) -/

section Keys

variable {s : State} {x : Reg} {k : Fin 16}

theorem exec_skp_of_key (h : (s.getV x).toNat = k.val) : exec (.skp x) s = .next (s.skipIf (s.getKey k)) := by
  simp [exec, execSkp, keyIndexOf_eq_some_iff.mpr h]

theorem exec_skp_of_outOfRange (h : 16 ≤ (s.getV x).toNat) :
    exec (.skp x) s = .next (s.faultOf (.skp x) .keyIndex (some (s.getV x).toNat)) := by
  simp [exec, execSkp, keyIndexOf_eq_none_iff.mpr h]

theorem exec_sknp_of_key (h : (s.getV x).toNat = k.val) : exec (.sknp x) s = .next (s.skipIf (!s.getKey k)) := by
  simp [exec, execSknp, keyIndexOf_eq_some_iff.mpr h]

theorem exec_sknp_of_outOfRange (h : 16 ≤ (s.getV x).toNat) :
    exec (.sknp x) s = .next (s.faultOf (.sknp x) .keyIndex (some (s.getV x).toNat)) := by
  simp [exec, execSknp, keyIndexOf_eq_none_iff.mpr h]

theorem exec_ldVxK_of_firstKey (h : s.firstKey = some k) :
    exec (.ldVxK x) s = .next (s.setV x (BitVec.ofNat 8 k.val)) := by
  simp [exec, execLdVxK, h]

theorem exec_ldVxK_of_noKey (h : ∀ k, s.getKey k = false) : exec (.ldVxK x) s = .next (s.setPc (s.pc - 2)) := by
  simp [exec, execLdVxK, State.firstKey_eq_none_iff.mpr h]

/-- A pressed key with no lower one pressed is the key found: any other would have a pressed key below it or be below a
pressed key that has none. -/
theorem State.firstKey_of_lowest (hk : s.getKey k = true) (hlow : ∀ j, j < k → s.getKey j = false) :
    s.firstKey = some k := by
  cases hfind : s.firstKey with
  | none => simp [State.firstKey_eq_none_iff.mp hfind k] at hk
  | some k' =>
    obtain ⟨hk', hlow'⟩ := State.firstKey_some hfind
    obtain hlt | rfl | hlt := lt_trichotomy k k'
    · simp [hlow' k hlt] at hk
    · rfl
    · simp [hlow k' hlt] at hk'

theorem keyByte_toNat (k : Fin 16) : (BitVec.ofNat 8 k.val).toNat = k.val := by
  have hlt : k.val < 2 ^ 8 := by omega
  rw [BitVec.toNat_ofNat, Nat.mod_eq_of_lt hlt]

end Keys

/-- Settles O38: each of the two is a skip on the key, and a skip writes pc alone. -/
theorem keySkipsTestTheKey : Obligations.KeySkipsTestTheKey := by
  refine fun x k s hk => ⟨⟨_, exec_skp_of_key hk, (s.skipIf_writesOnly _).unchanged, ?_⟩,
    ⟨_, exec_sknp_of_key hk, (s.skipIf_writesOnly _).unchanged, ?_⟩⟩
  · rw [State.skipIf_eq, State.setPc_pc]
  · rw [State.skipIf_eq, State.setPc_pc]
    cases s.getKey k <;> rfl

/-- Settles O39: no key has such an index, and a fault writes status alone. -/
theorem keyIndexOutOfRangeHalts : Obligations.KeyIndexOutOfRangeHalts :=
  fun _ s hx => ⟨⟨_, exec_skp_of_outOfRange hx, (s.faultOf_writesOnly ..).unchanged, rfl⟩,
    ⟨_, exec_sknp_of_outOfRange hx, (s.faultOf_writesOnly ..).unchanged, rfl⟩⟩

/-- Settles O40: each of the three is one write, to Vx or to a timer. -/
theorem timerTransfersMoveOneByte : Obligations.TimerTransfersMoveOneByte :=
  fun x s => ⟨⟨_, exec_ldVxDt s x, s.getV_setV_same x _, State.setV_regsBut, (s.setV_writesOnly x _).unchanged⟩,
    ⟨_, exec_ldDtVx s x, rfl, (s.setDT_writesOnly _).unchanged⟩,
    ⟨_, exec_ldStVx s x, rfl, (s.setST_writesOnly _).unchanged⟩⟩

/-- Settles O41: the key found is the lowest pressed one and its number fits in a byte; with none found pc alone is
written. -/
theorem keyWaitTakesTheLowestKeyOrRewinds : Obligations.KeyWaitTakesTheLowestKeyOrRewinds := by
  refine fun x s => ⟨fun k hk hlow => ?_, fun hnone => ?_⟩
  · refine ⟨_, exec_ldVxK_of_firstKey (State.firstKey_of_lowest hk hlow), ?_, State.setV_regsBut,
      (s.setV_writesOnly x _).unchanged⟩
    rw [State.getV_setV_same, keyByte_toNat]
  · exact ⟨_, exec_ldVxK_of_noKey hnone, rfl, (s.setPc_writesOnly _).unchanged⟩

/-- Settles O42: the step runs FX0A with pc advanced by 2 (O8), and the wait takes the 2 back. -/
theorem keyWaitLeavesTheStateAsItWas : Obligations.KeyWaitLeavesTheStateAsItWas := by
  intro x s hrun hnext hpc hhigh hlow hnone
  calc step s
      = exec (.ldVxK x) ((s.setInbox s.inbox.tail).setPc (s.pc + 2)) :=
        stepRunsTheDecodedInstruction _ s rfl hrun hnext hpc hhigh hlow
    _ = .next (((s.setInbox s.inbox.tail).setPc (s.pc + 2)).setPc (s.pc + 2 - 2)) := exec_ldVxK_of_noKey hnone
    _ = .next (s.setInbox s.inbox.tail) := by rw [BitVec.add_sub_cancel]; rfl

end Sys2Proof.Machine

namespace Sys2Proof.Machine

/-! ## Index register and memory (44_index_memory R170-R175) -/

@[simp] theorem zext16_toNat (b : Byte) : (zext16 b).toNat = b.toNat :=
  BitVec.toNat_setWidth_of_le (by decide)

/-- The font address stays below 2^16, so it is exact (R172). -/
theorem zext16_mul_five_toNat (b : Byte) : (zext16 b * 5).toNat = b.toNat * 5 := by
  have hlt : b.toNat * 5 < 2 ^ 16 := by omega
  calc (zext16 b * 5).toNat
      = b.toNat * 5 % 2 ^ 16 := by rw [BitVec.toNat_mul, zext16_toNat]; rfl
    _ = b.toNat * 5 := Nat.mod_eq_of_lt hlt

/-- The digits of a byte as numbers, each small enough for a byte of its own (R173). -/
theorem bcdDigits_map_toNat (v : Byte) :
    (bcdDigits v).map BitVec.toNat = [v.toNat / 100, v.toNat / 10 % 10, v.toNat % 10] := by
  have hhundreds : v.toNat / 100 < 2 ^ 8 := by omega
  have htens : v.toNat / 10 % 10 < 2 ^ 8 := by omega
  have hones : v.toNat % 10 < 2 ^ 8 := by omega
  simp only [bcdDigits, List.map_cons, List.map_nil, BitVec.toNat_ofNat, Nat.mod_eq_of_lt hhundreds,
    Nat.mod_eq_of_lt htens, Nat.mod_eq_of_lt hones]

/-! ### The bounds check of FX33, FX55 and FX65, by the last address accessed (R52, R53) -/

section BoundsCheck

variable {base last : Nat}

theorem outOfRange_succ_of_lt (h : base + last < 4096) : outOfRange base (last + 1) = none :=
  outOfRange_eq_none_iff.mpr fun k hk => by omega

theorem outOfRange_succ_of_le (h : 4096 ≤ base + last) : outOfRange base (last + 1) = some (max base 4096) := by
  have hbad : ¬(last + 1 = 0 ∨ base + (last + 1) ≤ Config.memSize) := by simp only [Config.memSize]; omega
  rw [outOfRange, if_neg hbad]

end BoundsCheck

/-! ### What each of the three does in range and out of range (FX55 in range is `exec_ldMemVx_inRange`) -/

section BlockAccess

variable {s : State} {x : Reg}

theorem exec_ldBVx_of_inRange (h : s.I.toNat + 2 < 4096) :
    exec (.ldBVx x) s = .next (s.storeBytes s.I.toNat (bcdDigits (s.getV x))) := by
  simp [exec, execLdBVx, State.eaI, outOfRange_succ_of_lt h]

theorem exec_ldBVx_of_outOfRange (h : 4096 ≤ s.I.toNat + 2) :
    exec (.ldBVx x) s = .next (s.faultOf (.ldBVx x) .data (some (max s.I.toNat 4096))) := by
  simp [exec, execLdBVx, State.eaI, outOfRange_succ_of_le h]

theorem exec_ldMemVx_of_outOfRange (h : 4096 ≤ s.I.toNat + x.val) :
    exec (.ldMemVx x) s = .next (s.faultOf (.ldMemVx x) .data (some (max s.I.toNat 4096))) := by
  simp [exec, execLdMemVx, State.eaI, outOfRange_succ_of_le h]

theorem exec_ldVxMem_of_inRange (h : s.I.toNat + x.val < 4096) : exec (.ldVxMem x) s = .next (s.loadRegsUpTo x) := by
  simp [exec, execLdVxMem, State.eaI, outOfRange_succ_of_lt h]

theorem exec_ldVxMem_of_outOfRange (h : 4096 ≤ s.I.toNat + x.val) :
    exec (.ldVxMem x) s = .next (s.faultOf (.ldVxMem x) .data (some (max s.I.toNat 4096))) := by
  simp [exec, execLdVxMem, State.eaI, outOfRange_succ_of_le h]

/-- FX65 loads a register up to Vx from its byte. -/
theorem State.getV_loadRegsUpTo_of_le {k : Reg} (h : k ≤ x) :
    (s.loadRegsUpTo x).getV k = s.byteAt (s.I.toNat + k.val) :=
  (s.getV_loadRegsUpTo x k).trans (if_pos h)

/-- FX65 keeps a register above Vx. -/
theorem State.getV_loadRegsUpTo_of_lt {k : Reg} (h : x < k) : (s.loadRegsUpTo x).getV k = s.getV k :=
  (s.getV_loadRegsUpTo x k).trans (if_neg (not_le_of_gt h))

end BlockAccess

/-- Settles O44: the three digits are stored at I, and a store writes memory alone. -/
theorem bcdStoresThreeDigits : Obligations.BcdStoresThreeDigits := by
  intro x s hwf hin
  have hdigit : ∀ k (hk : k < 3), ((s.storeBytes s.I.toNat (bcdDigits (s.getV x))).byteAt (s.I.toNat + k)).toNat =
      [(s.getV x).toNat / 100, (s.getV x).toNat / 10 % 10, (s.getV x).toNat % 10][k] := fun k hk =>
    calc ((s.storeBytes s.I.toNat (bcdDigits (s.getV x))).byteAt (s.I.toNat + k)).toNat
        = ((bcdDigits (s.getV x))[k]'hk).toNat := by rw [State.byteAt_storeBytes_inside hwf hin hk]
      _ = ((bcdDigits (s.getV x)).map BitVec.toNat)[k] := (List.getElem_map BitVec.toNat).symm
      _ = _ := List.getElem_of_eq (bcdDigits_map_toNat _) hk
  exact ⟨_, exec_ldBVx_of_inRange hin, hdigit 0 (by decide), hdigit 1 (by decide), hdigit 2 (by decide),
    fun _ ha => State.byteAt_storeBytes_outside hwf ha, (s.storeBytes_writesOnly ..).unchanged⟩

/-- Settles O45: the registers are stored at I in order, and a store writes memory alone. -/
theorem blockStoreWritesV0ToVx : Obligations.BlockStoreWritesV0ToVx := by
  intro x s hwf hin
  obtain ⟨t, ht⟩ := exec_answers (.ldMemVx x) s
  refine ⟨t, ht, fun k hk => exec_ldMemVx_byteAt hwf hin ht hk, ?_⟩
  obtain rfl := exec_ldMemVx_inRange hin ht
  exact ⟨fun a ha => State.byteAt_storeBytes_outside hwf (by rwa [State.length_regsUpTo]),
    (s.storeBytes_writesOnly ..).unchanged⟩

/-- Settles O48: with the same I the load reads the bytes that the store wrote, and in the same order. -/
theorem blockLoadReturnsWhatBlockStoreWrote : Obligations.BlockLoadReturnsWhatBlockStoreWrote := by
  intro x s t u v hwf hin hstore hbytes hI hload k hk
  have hin' : u.I.toNat + x.val < 4096 := hI ▸ hin
  calc v.getV k
      = (u.loadRegsUpTo x).getV k := by rw [eq_of_exec (exec_ldVxMem_of_inRange hin') hload]
    _ = u.byteAt (u.I.toNat + k.val) := State.getV_loadRegsUpTo_of_le hk
    _ = t.byteAt (s.I.toNat + k.val) := by rw [hbytes, hI]
    _ = s.getV k := exec_ldMemVx_byteAt hwf hin hstore hk

/-- Settles O43: each of the three writes I alone; the address and the product are exact, the sum is modulo 2^16. -/
theorem indexLoadsWriteI : Obligations.IndexLoadsWriteI := by
  refine fun x nnn s => ⟨⟨_, exec_ldI s nnn, zextAddr_toNat nnn, (s.setI_writesOnly _).unchanged⟩,
    ⟨_, exec_addIVx s x, ?_, (s.setI_writesOnly _).unchanged⟩,
    ⟨_, exec_ldFVx s x, zext16_mul_five_toNat _, (s.setI_writesOnly _).unchanged⟩⟩
  rw [State.setI_I, BitVec.toNat_add, zext16_toNat]

/-- Settles O46: the load reads registers up to Vx from memory and writes the registers alone. -/
theorem blockLoadReadsV0ToVx : Obligations.BlockLoadReadsV0ToVx :=
  fun x s hin => ⟨_, exec_ldVxMem_of_inRange hin, fun _ => State.getV_loadRegsUpTo_of_le,
    fun _ => State.getV_loadRegsUpTo_of_lt, (s.loadRegsUpTo_writesOnly x).unchanged⟩

/-- Settles O47: the check of each of the three finds the same address, and a fault writes status alone. -/
theorem blockAccessOutsideMemoryHalts : Obligations.BlockAccessOutsideMemoryHalts :=
  fun _ s => ⟨fun h => ⟨_, exec_ldBVx_of_outOfRange h, (s.faultOf_writesOnly ..).unchanged, rfl⟩,
    fun h => ⟨⟨_, exec_ldMemVx_of_outOfRange h, (s.faultOf_writesOnly ..).unchanged, rfl⟩,
      ⟨_, exec_ldVxMem_of_outOfRange h, (s.faultOf_writesOnly ..).unchanged, rfl⟩⟩⟩

end Sys2Proof.Machine

namespace Sys2Proof.Machine

/-! ## Faults, the halted engine and the host's operations (60_exceptions R200-R214) -/

section ListedOperation

variable {s t : State} {op : PortOp} {rest : List PortOp}

/-- A step that performs a listed operation writes that operation's footprint and the list. -/
theorem step_unchangedBut (hin : s.inbox = op :: rest) (h : step s = .next t) :
    UnchangedBut (.inbox :: portFootprint op) s t := by
  have hrun : runPort op (s.setInbox rest) = .next t := (step_of_inbox_cons hin).symm.trans h
  exact (((s.setInbox_writesOnly rest).mono (by simp)).trans ((runPort_writesOnly hrun).mono (by simp))).unchanged

/-- Only a cycle takes a fault and only a reset leaves one (R203, R205). -/
theorem status_mem_portFootprint (h : Part.status ∈ portFootprint op) : op = .cycle ∨ op = .reset := by
  cases op <;> simp_all [portFootprint]

end ListedOperation

/-- Settles O50: the handler emits the event, whose address is pc - 2, and writes outputs alone. -/
theorem unknownOpcodeOnlyEmitsItsEvent : Obligations.UnknownOpcodeOnlyEmitsItsEvent :=
  fun op s => ⟨_, exec_unknownOpcode s op, rfl, (s.emit_writesOnly _).unchanged⟩

/-- Settles O12: an instruction that changes status has taken one fault, whose record is well formed; a record with a
word is no Fetch record. -/
theorem fatalFaultsArePrecise : Obligations.FatalFaultsArePrecise := by
  intro i s t hrun h hne
  obtain hsame | ⟨kind, addr, rfl, hwf⟩ := exec_status_cases h
  · exact absurd (hsame.trans hrun) hne
  · refine ⟨(s.faultOf_writesOnly ..).unchanged, kind, addr, ?_, rfl⟩
    rintro rfl
    simp [FaultInfo.wf] at hwf

/-! ### The halted engine (R205, D5) -/

section Halted

variable {s t : State} {f : FaultInfo}

theorem opCycle_of_halted (hs : s.status = .halted f) : opCycle s = .next s := by
  simp [opCycle, hs]

/-- A cycle of a halted engine only takes the operation from the list. -/
theorem step_cycle_of_halted (hs : s.status = .halted f) (hnext : s.CycleNext) (h : step s = .next t) :
    t = s.setInbox s.inbox.tail :=
  Host.Outcome.next.inj (h.symm.trans ((step_of_cycleNext hnext).trans (opCycle_of_halted hs)))

/-- A tick of a halted engine only clears the sound output. -/
theorem step_tick_of_halted {rest : List PortOp} (hs : s.status = .halted f) (hin : s.inbox = .tick :: rest)
    (h : step s = .next t) : t = (s.setInbox rest).setSoundReq false := by
  rw [step_of_inbox_cons hin, runPort_tick, opTick_halted (s := s.setInbox rest) hs] at h
  exact (Host.Outcome.next.inj h).symm

/-- The halt stays unless the step is a listed reset. -/
theorem reset_listed_of_leaves_halt (hs : s.status = .halted f) (h : step s = .next t) (hne : t.status ≠ .halted f) :
    ∃ rest, s.inbox = .reset :: rest := by
  obtain ⟨op, hcycle, hlisted, hrun⟩ := step_runPort_cases h
  have hmem : Part.status ∈ portFootprint op := by
    by_contra hnot
    exact hne ((step_same (p := .status) hrun (by decide) hnot).trans hs)
  obtain rfl | rfl := status_mem_portFootprint hmem
  · rw [step_cycle_of_halted hs (hcycle rfl) h] at hne
    exact absurd hs hne
  · exact hlisted (by decide)

end Halted

/-- Settles O11: a cycle is `step_cycle_of_halted` and a tick `step_tick_of_halted`; a key, a load and a display
read stay in their footprints; what leaves the halt is `reset_listed_of_leaves_halt`. -/
theorem haltedEngineIsFrozenUntilReset : Obligations.HaltedEngineIsFrozenUntilReset := by
  intro s t f hs h
  refine ⟨fun hin => ?_, fun rest hin => ?_, fun rest hin => ?_, fun k p rest hin => ?_, fun bs rest hin => ?_,
    fun rest hin => ?_, fun hne => ?_⟩
  · exact Host.Outcome.next.inj (h.symm.trans ((step_of_inbox_nil hin).trans (opCycle_of_halted hs)))
  · rw [step_cycle_of_halted hs (.inr ⟨rest, hin⟩) h]
    exact (s.setInbox_writesOnly _).unchanged
  · rw [step_tick_of_halted hs hin h]
    exact ⟨rfl, (((s.setInbox_writesOnly rest).mono (by simp)).trans
      ((State.setSoundReq_writesOnly _ _).mono (by simp))).unchanged⟩
  · exact (step_unchangedBut hin h).mono (by simp [portFootprint])
  · exact (step_unchangedBut hin h).mono (by simp [portFootprint])
  · exact (step_unchangedBut hin h).mono (by simp [portFootprint])
  · obtain ⟨rest, hin⟩ := reset_listed_of_leaves_halt hs h hne
    rw [step_of_inbox_cons hin, runPort_reset] at h
    exact ⟨rest, hin, Host.Outcome.next.inj h ▸ rfl⟩

/-! ### The tick (R210) -/

/-- Settles O13: a tick of a running engine counts each timer down and latches whether ST was nonzero; of a halted one,
it writes the sound output alone. -/
theorem tickCountsBothTimersDown : Obligations.TickCountsBothTimersDown := by
  intro s rest hin
  have hstep : step s = .next (opTick (s.setInbox rest)) := step_of_inbox_cons hin
  refine ⟨_, hstep, (opTick_writesOnly _).unchanged .inbox (by decide),
    (step_unchangedBut hin hstep).mono (by simp [portFootprint]), fun hrun => ?_, fun hne => ?_⟩
  · rw [opTick_running (s := s.setInbox rest) hrun]
    refine ⟨countDown_toNat s.DT, countDown_toNat s.ST, ?_⟩
    simp [← BitVec.toNat_inj]
  · cases hs : s.status with
    | running => exact absurd hs hne
    | halted f =>
      rw [opTick_halted (s := s.setInbox rest) hs]
      exact ⟨rfl, rfl, rfl⟩

/-! ### The keys (R214, D11) -/

section Key

variable (s : State) (index : Int) (pressed : Bool)

theorem opKey_getKey (k : Fin 16) :
    (opKey index pressed s).getKey k = if index = (k.val : Int) then pressed else s.getKey k := by
  cases hk : keyOfIndex index with
  | none =>
    have hout := keyOfIndex_eq_none_iff.mp hk
    rw [opKey_unnamed hout, State.emit_getKey, if_neg (by omega)]
  | some j =>
    obtain rfl := keyOfIndex_eq_some_iff.mp hk
    rw [opKey_named, State.emit_getKey, State.getKey_setKey]
    simp only [Int.natCast_inj, Fin.val_inj, eq_comm]

theorem opKey_outputs :
    (opKey index pressed s).outputs = .keyResult (if 0 ≤ index ∧ index < 16 then .ok else .keyError) :: s.outputs := by
  cases hk : keyOfIndex index with
  | none =>
    have hout := keyOfIndex_eq_none_iff.mp hk
    rw [opKey_unnamed hout, State.emit_outputs, if_neg hout]
  | some j =>
    obtain rfl := keyOfIndex_eq_some_iff.mp hk
    rw [opKey_named, State.emit_outputs, State.setKey_outputs, if_pos (by omega)]

end Key

/-- Settles O14: the step is op_key, which writes its key and its answer. -/
theorem keypressSetsTheNamedKey : Obligations.KeypressSetsTheNamedKey := by
  intro s index pressed rest hin
  have hstep : step s = .next (opKey index pressed (s.setInbox rest)) := step_of_inbox_cons hin
  exact ⟨_, hstep, (opKey_writesOnly _ index pressed).unchanged .inbox (by decide),
    (step_unchangedBut hin hstep).mono (by simp [portFootprint]), opKey_getKey _ index pressed,
    opKey_outputs _ index pressed⟩

end Sys2Proof.Machine

namespace Sys2Proof.Machine

/-! ## Reset, load and the host's schedule (70_reset R230-R240) -/

/-- Settles O58: the invariant holds at reset, the list of coming operations is no part of it, and every step
keeps it. -/
theorem everyScheduleStaysSound : Obligations.EveryScheduleStaysSound := by
  intro font ops n s hreached
  have hstart : MachineInv ((State.resetWith font).setInbox ops) :=
    (resetWith_inv font).of_writesOnly (State.setInbox_writesOnly _ ops) (by simp)
  exact run_keeps everyStepKeepsTheInvariant hstart hreached

/-- From any state a reset gives the reset state of the engine's own table, apart from the model's own three fields. -/
theorem opReset_unchangedBut_resetWith (s : State) :
    UnchangedBut [.draws, .inbox, .outputs] (State.resetWith s.font) (opReset s) := by
  intro p hp
  cases p
  case draws | inbox | outputs => simp at hp
  case mem | V | keys => exact fun _ => rfl
  all_goals rfl

/-- Settles O17: the step is op_reset, and taking it from the list leaves the table, the draws and the outputs. -/
theorem resetRestoresEveryElement : Obligations.ResetRestoresEveryElement := fun s rest hin =>
  ⟨opReset (s.setInbox rest), step_of_inbox_cons hin, opReset_unchangedBut_resetWith (s.setInbox rest),
    rfl, rfl, rfl⟩

/-- Settles O15: a ROM that fits is stored at 0x200 and answered ok; one that does not is only answered. -/
theorem loadCopiesARomThatFits : Obligations.LoadCopiesARomThatFits := by
  intro s bytes rest hwf hin
  have hstep : step s = .next (opLoad bytes (s.setInbox rest)) := step_of_inbox_cons hin
  refine ⟨_, hstep, (opLoad_writesOnly _ bytes).unchanged .inbox (by decide),
    (step_unchangedBut hin hstep).mono (by simp [portFootprint]), fun hfits => ?_, fun hlarge => ?_⟩
  · rw [opLoad_fits hfits]
    exact ⟨fun k hk => State.byteAt_storeBytes_inside (s := s.setInbox rest) hwf (by omega) hk,
      fun a ha => State.byteAt_storeBytes_outside (s := s.setInbox rest) hwf ha, rfl⟩
  · rw [opLoad_tooLarge hlarge]
    exact ⟨fun _ => rfl, rfl⟩

end Sys2Proof.Machine
